-- ==== Sys2Proof/Word.lean ====
section
/-! DEFINITION. The word types of the machine: Word, register index, instruction cell (00_scope.md R7, R8; 10_state.md R20). -/

namespace Sys2Proof

/-- One byte of an image or of the instruction word (30_encoding.md R103). -/
abbrev Byte := BitVec 8

/-- A Word of profile P16C: 16 bits, unsigned (00_scope.md R2, R6, R8). -/
abbrev Word := BitVec 16

/-- A register index: one operand byte, so every value names one of the 256 slots (10_state.md R20, R24). -/
abbrev RegIdx := BitVec 8

/-- One cell of the code segment: a 32-bit instruction word (20_memory.md R61; 30_encoding.md R100). -/
abbrev Cell32 := BitVec 32

end Sys2Proof
end

