-- ==== Sys2Proof/Config.lean ====
section
/-! DEFINITION. What is fixed for one machine: the parameters of 00_scope.md R6, the registered devices and system calls, and
the free answers of both. -/

namespace Sys2Proof

/-- What a device does with one `Load` or `Store` (45_io_registry.md R285): it answers, with a Word (which a `Store`
ignores) or with an error value of its own (R292), or it never answers (93_implementation_defined.md U20). The type of the
error value is DESIGN CHOICE (log 12). -/
inductive DeviceAnswer where
  | ok (v : Word)
  | error (e : Nat)
  | never
  deriving DecidableEq, Repr, Inhabited

/-- One access of the core to a device, as the device sees it: `Load(a)` or `Store(a, v)` (45_io_registry.md R285). -/
inductive IoAccess where
  | load (a : Word)
  | store (a v : Word)
  deriving DecidableEq, Repr

/-- A registered device (45_io_registry.md R285): its range `[first, last]` (`Begin` and `End`, inclusive), the device
model the configuration supplies, and the results of its lifecycle hooks (`none`: ok). `script` holds the answers to its
first accesses in order; every later answer is free (20_memory.md R84). Scripts and hook results as data: DESIGN CHOICE
(log 22). -/
structure Device where
  first : Word
  last : Word
  script : List DeviceAnswer
  startup : Option Nat
  shutdown : Option Nat
  deriving DecidableEq, Repr

/-- An entry of the system-call table (44_misc_syscall.md R270): one of the rules R271 to R273, a rule that the platform gives
(`platform`), or Invalid (R276). -/
inductive SystemCall where
  | terminate
  | panic
  | putc
  | platform
  | invalid
  deriving DecidableEq, Repr

/-- A registered system call: the selector and what it selects (44_misc_syscall.md R270). -/
structure SystemCallEntry where
  selector : Byte
  call : SystemCall
  deriving DecidableEq, Repr

/-- What a rule of the platform's own does, being "the same kind of rule as R271 to R273" (44_misc_syscall.md R270): the result
`{halt, emit, c}` of SYS, or `Panic` (47_functional_units.md R339). That these are all the kinds is DESIGN CHOICE (log 20). -/
inductive SystemCallOutcome where
  | result (halt emit : Bool) (c : BitVec 32)
  | panic (payload : Word)
  deriving DecidableEq, Repr, Inhabited

/-- The parameters of the block that the spec leaves open (00_scope.md R6). `devices` is `DEVICES`, in registration order
(45_io_registry.md R287); `syscallExt` is `SYSCALL_EXT`, the entries registered at setup for selectors 3 to 255, none in P16C
(92_eei_decisions.md D25; 93_implementation_defined.md part 2). -/
structure Config where
  codeSize : Nat
  dataSize : Nat
  stackSize : Nat
  callSize : Nat
  untakenCallPushes : Bool
  devices : List Device
  syscallExt : List SystemCallEntry
  deriving DecidableEq, Repr

/-- The reference column of 00_scope.md R6. DESIGN CHOICE to reset into it (log 1). -/
def Config.reference : Config :=
  { codeSize := 65536, dataSize := 0xFF00, stackSize := 65536, callSize := 65536, untakenCallPushes := true, devices := [],
    syscallExt := [] }

/-- `STACK_TOP`, the value both stack pointers take at reset (00_scope.md R6). -/
def Config.stackTop : Word := 0xFFFF#16

/-- FREE VALUE (log 4): what a device without a scripted answer does with `access`, after `history`, every device access made
before it. The answer may depend on the device's own state and on every earlier access (20_memory.md R84;
93_implementation_defined.md part 2). -/
opaque Config.deviceDraw (history : List IoAccess) (access : IoAccess) : DeviceAnswer

/-- FREE VALUE (log 20): what the platform's own rule for `selector` does, given the values SYS receives: the immediate, `x[s0]`,
`x[s1]`, and whether the two indices are equal (47_functional_units.md R339). The spec says nothing about any such rule. -/
opaque Config.systemCallDraw (selector : Byte) (imm a b : Word) (same : Bool) : SystemCallOutcome

end Sys2Proof
end

