-- ==== Sys2Proof/Syntax.lean ====
section
/-! DEFINITION. Instructions as data: the decoded record of 30_encoding.md R104, the undefined encodings of R116, and one
constructor of `Instr` per row of spec/opcode_table.json. -/

namespace Sys2Proof

/-- The record `DecodedInstruction` (30_encoding.md R104): exactly the 32 bits of the word, regrouped. -/
structure DecodedInstruction where
  group : BitVec 3
  op : BitVec 5
  data0 : Byte
  data1 : Byte
  data2 : Byte
  deriving DecidableEq, Repr

/-- An encoding with no handler in P16C, and what dispatch finds wrong with it (30_encoding.md R116). -/
inductive Undefined where
  /-- Group 5, 6 or 7: no execution unit (46_sequencer.md R304). -/
  | noUnit (group : BitVec 3)
  /-- Group 0, op 22 to 31 (40_arithmetic.md R154). -/
  | arithmetic (op : BitVec 5)
  /-- Group 1, op 17 to 31 (41_move.md R187). -/
  | move (op : BitVec 5)
  /-- Group 2, op 24 to 31 (42_compare.md R226). -/
  | compare (op : BitVec 5)
  /-- Group 3, op 17 to 31 (43_jump.md R261). -/
  | jump (op : BitVec 5)
  /-- Group 4, op 1 to 31 (44_misc_syscall.md R275). -/
  | misc (op : BitVec 5)
  /-- Group 4, op 0, selector 3 to 255: Invalid unless the platform has registered it; the operand bytes are what a registered
  entry reads (44_misc_syscall.md R270, R276). -/
  | systemCommand (selector s0 s1 : Byte)
  deriving DecidableEq, Repr

/-- The instructions of P16C, one constructor per row of spec/opcode_table.json. A constructor holds the operand bytes the
instruction reads (30_encoding.md R108); ignored bytes are not kept (log 14). `d`, `s0`, `s1` are `data[0]`, `data[1]`,
`data[2]`; `imm` is the 16-bit immediate (R105). An arithmetic immediate form reads the register whose index is the low
byte of `imm` as well (40_arithmetic.md R131). -/
inductive Instr where
  /-- `add` (40_arithmetic.md R132). -/
  | add (d s0 s1 : RegIdx)
  /-- `sub` (40_arithmetic.md R133). -/
  | sub (d s0 s1 : RegIdx)
  /-- `mul` (40_arithmetic.md R134). -/
  | mul (d s0 s1 : RegIdx)
  /-- `div` (40_arithmetic.md R135). -/
  | div (d s0 s1 : RegIdx)
  /-- `rem` (40_arithmetic.md R136). -/
  | rem (d s0 s1 : RegIdx)
  /-- `shl` (40_arithmetic.md R137). -/
  | shl (d s0 s1 : RegIdx)
  /-- `shr` (40_arithmetic.md R138). -/
  | shr (d s0 s1 : RegIdx)
  /-- `and` (40_arithmetic.md R139). -/
  | and (d s0 s1 : RegIdx)
  /-- `or` (40_arithmetic.md R140). -/
  | or (d s0 s1 : RegIdx)
  /-- `not` (40_arithmetic.md R141). -/
  | not (d s0 : RegIdx)
  /-- `xor` (40_arithmetic.md R142). -/
  | xor (d s0 s1 : RegIdx)
  /-- `inc` (40_arithmetic.md R143). -/
  | inc (d s0 : RegIdx)
  /-- `dec` (40_arithmetic.md R144). -/
  | dec (d s0 : RegIdx)
  /-- `double` (40_arithmetic.md R145). -/
  | double (d s0 : RegIdx)
  /-- `halve` (40_arithmetic.md R146). -/
  | halve (d s0 : RegIdx)
  /-- `addi` (40_arithmetic.md R147). -/
  | addi (d : RegIdx) (imm : Word)
  /-- `subi` (40_arithmetic.md R148). -/
  | subi (d : RegIdx) (imm : Word)
  /-- `muli` (40_arithmetic.md R149). -/
  | muli (d : RegIdx) (imm : Word)
  /-- `divi` (40_arithmetic.md R150). -/
  | divi (d : RegIdx) (imm : Word)
  /-- `remi` (40_arithmetic.md R151). -/
  | remi (d : RegIdx) (imm : Word)
  /-- `shli` (40_arithmetic.md R152). -/
  | shli (d : RegIdx) (imm : Word)
  /-- `shri` (40_arithmetic.md R153). -/
  | shri (d : RegIdx) (imm : Word)
  /-- `move` (41_move.md R170). -/
  | move (d s0 : RegIdx)
  /-- `swap` (41_move.md R171). -/
  | swap (d s0 : RegIdx)
  /-- `swap.rm` (41_move.md R172). -/
  | swapRm (d s0 : RegIdx)
  /-- `swap.mm` (41_move.md R173). -/
  | swapMm (d s0 : RegIdx)
  /-- `swap.ri` (41_move.md R174). -/
  | swapRi (d : RegIdx) (imm : Word)
  /-- `swap.mi` (41_move.md R175). -/
  | swapMi (d : RegIdx) (imm : Word)
  /-- `set` (41_move.md R176). -/
  | set (d : RegIdx) (imm : Word)
  /-- `load` (41_move.md R177). -/
  | load (d s0 : RegIdx)
  /-- `load.i` (41_move.md R178). -/
  | loadI (d : RegIdx) (imm : Word)
  /-- `store` (41_move.md R179). -/
  | store (d s0 : RegIdx)
  /-- `store.m` (41_move.md R180). -/
  | storeM (d s0 : RegIdx)
  /-- `store.ia` (41_move.md R181). -/
  | storeIa (d : RegIdx) (imm : Word)
  /-- `store.iv` (41_move.md R182). -/
  | storeIv (d : RegIdx) (imm : Word)
  /-- `push` (41_move.md R183). -/
  | push (s0 : RegIdx)
  /-- `push.i` (41_move.md R184). -/
  | pushI (imm : Word)
  /-- `pop` (41_move.md R185). -/
  | pop (d : RegIdx)
  /-- `peek` (41_move.md R186). -/
  | peek (d : RegIdx)
  /-- `eq` (42_compare.md R202). -/
  | eq (s0 s1 : RegIdx)
  /-- `eq.and` (42_compare.md R203). -/
  | eqAnd (s0 s1 : RegIdx)
  /-- `eq.or` (42_compare.md R204). -/
  | eqOr (s0 s1 : RegIdx)
  /-- `eq.xor` (42_compare.md R205). -/
  | eqXor (s0 s1 : RegIdx)
  /-- `neq` (42_compare.md R206). -/
  | neq (s0 s1 : RegIdx)
  /-- `neq.and` (42_compare.md R207). -/
  | neqAnd (s0 s1 : RegIdx)
  /-- `neq.or` (42_compare.md R208). -/
  | neqOr (s0 s1 : RegIdx)
  /-- `neq.xor` (42_compare.md R209). -/
  | neqXor (s0 s1 : RegIdx)
  /-- `lt` (42_compare.md R210). -/
  | lt (s0 s1 : RegIdx)
  /-- `lt.and` (42_compare.md R211). -/
  | ltAnd (s0 s1 : RegIdx)
  /-- `lt.or` (42_compare.md R212). -/
  | ltOr (s0 s1 : RegIdx)
  /-- `lt.xor` (42_compare.md R213). -/
  | ltXor (s0 s1 : RegIdx)
  /-- `gt` (42_compare.md R214). -/
  | gt (s0 s1 : RegIdx)
  /-- `gt.and` (42_compare.md R215). -/
  | gtAnd (s0 s1 : RegIdx)
  /-- `gt.or` (42_compare.md R216). -/
  | gtOr (s0 s1 : RegIdx)
  /-- `gt.xor` (42_compare.md R217). -/
  | gtXor (s0 s1 : RegIdx)
  /-- `le` (42_compare.md R218). -/
  | le (s0 s1 : RegIdx)
  /-- `le.and` (42_compare.md R219). -/
  | leAnd (s0 s1 : RegIdx)
  /-- `le.or` (42_compare.md R220). -/
  | leOr (s0 s1 : RegIdx)
  /-- `le.xor` (42_compare.md R221). -/
  | leXor (s0 s1 : RegIdx)
  /-- `ge` (42_compare.md R222). -/
  | ge (s0 s1 : RegIdx)
  /-- `ge.and` (42_compare.md R223). -/
  | geAnd (s0 s1 : RegIdx)
  /-- `ge.or` (42_compare.md R224). -/
  | geOr (s0 s1 : RegIdx)
  /-- `ge.xor` (42_compare.md R225). -/
  | geXor (s0 s1 : RegIdx)
  /-- `b.i` (43_jump.md R244). -/
  | bI (imm : Word)
  /-- `call.i` (43_jump.md R245). -/
  | callI (imm : Word)
  /-- `b.r` (43_jump.md R246). -/
  | bR (s0 : RegIdx)
  /-- `call.r` (43_jump.md R247). -/
  | callR (s0 : RegIdx)
  /-- `bt.i` (43_jump.md R248). -/
  | btI (imm : Word)
  /-- `callt.i` (43_jump.md R249). -/
  | calltI (imm : Word)
  /-- `bt.r` (43_jump.md R250). -/
  | btR (s0 : RegIdx)
  /-- `callt.r` (43_jump.md R251). -/
  | calltR (s0 : RegIdx)
  /-- `bf.i` (43_jump.md R252). -/
  | bfI (imm : Word)
  /-- `callf.i` (43_jump.md R253). -/
  | callfI (imm : Word)
  /-- `bf.r` (43_jump.md R254). -/
  | bfR (s0 : RegIdx)
  /-- `callf.r` (43_jump.md R255). -/
  | callfR (s0 : RegIdx)
  /-- `ite.t` (43_jump.md R256). -/
  | iteT (s0 s1 : RegIdx)
  /-- `ite.f` (43_jump.md R257). -/
  | iteF (s0 s1 : RegIdx)
  /-- `itecall.t` (43_jump.md R258). -/
  | itecallT (s0 s1 : RegIdx)
  /-- `itecall.f` (43_jump.md R259). -/
  | itecallF (s0 s1 : RegIdx)
  /-- `ret` (43_jump.md R260). -/
  | ret
  /-- `syscall terminate` (44_misc_syscall.md R271). -/
  | syscallTerminate
  /-- `syscall panic` (44_misc_syscall.md R272). -/
  | syscallPanic (imm : Word)
  /-- `syscall putc` (44_misc_syscall.md R273). -/
  | syscallPutc (s0 s1 : RegIdx)
  deriving DecidableEq, Repr

end Sys2Proof
end

