-- ==== Sys2Proof/WellFormed.lean ====
section
/-! DEFINITION. The checks the spec puts on what a caller or a platform hands the block: field values before encoding
(30_encoding.md R107), operands of an instruction (10_state.md R24), devices, system calls and parameters (45_io_registry.md R286,
R288; 92_eei_decisions.md D25; 00_scope.md R6). -/

namespace Sys2Proof

/-- Field values as a caller of `encode` asks for them, of no particular width (30_encoding.md R107: "callers must reject
wider values before calling"). -/
structure FieldValues where
  group : Nat
  op : Nat
  data0 : Nat
  data1 : Nat
  data2 : Nat
  deriving DecidableEq, Repr

/-- The values fit their fields: `group < 8`, `op < 32`, each operand byte below 256 (30_encoding.md R101, R103, R107). -/
def FieldValues.wellFormed (v : FieldValues) : Bool :=
  decide (v.group < 8) && decide (v.op < 32) && decide (v.data0 < 256) && decide (v.data1 < 256) && decide (v.data2 < 256)

/-- The field values of a decoded record. -/
def DecodedInstruction.values (r : DecodedInstruction) : FieldValues :=
  { group := r.group.toNat, op := r.op.toNat, data0 := r.data0.toNat, data1 := r.data1.toNat, data2 := r.data2.toNat }

/-- The register indices an instruction names in operand bytes, and its immediate if it has one. -/
def Instr.operands : Instr → List RegIdx × Option Word
  | .add d s0 s1 | .sub d s0 s1 | .mul d s0 s1 | .div d s0 s1 | .rem d s0 s1 | .shl d s0 s1 | .shr d s0 s1
  | .and d s0 s1 | .or d s0 s1 | .xor d s0 s1 => ([d, s0, s1], none)
  | .not d s0 | .inc d s0 | .dec d s0 | .double d s0 | .halve d s0 => ([d, s0], none)
  | .addi d imm | .subi d imm | .muli d imm | .divi d imm | .remi d imm | .shli d imm | .shri d imm =>
    ([d, imm.setWidth 8], some imm)
  | .move d s0 | .swap d s0 | .swapRm d s0 | .swapMm d s0 | .load d s0 | .store d s0 | .storeM d s0 => ([d, s0], none)
  | .swapRi d imm | .swapMi d imm | .set d imm | .loadI d imm | .storeIa d imm | .storeIv d imm => ([d], some imm)
  | .push s0 => ([s0], none)
  | .pushI imm => ([], some imm)
  | .pop d | .peek d => ([d], none)
  | .eq s0 s1 | .eqAnd s0 s1 | .eqOr s0 s1 | .eqXor s0 s1 | .neq s0 s1 | .neqAnd s0 s1 | .neqOr s0 s1 | .neqXor s0 s1
  | .lt s0 s1 | .ltAnd s0 s1 | .ltOr s0 s1 | .ltXor s0 s1 | .gt s0 s1 | .gtAnd s0 s1 | .gtOr s0 s1 | .gtXor s0 s1
  | .le s0 s1 | .leAnd s0 s1 | .leOr s0 s1 | .leXor s0 s1 | .ge s0 s1 | .geAnd s0 s1 | .geOr s0 s1 | .geXor s0 s1 =>
    ([s0, s1], none)
  | .bI imm | .callI imm | .btI imm | .calltI imm | .bfI imm | .callfI imm => ([], some imm)
  | .bR s0 | .callR s0 | .btR s0 | .calltR s0 | .bfR s0 | .callfR s0 => ([s0], none)
  | .iteT s0 s1 | .iteF s0 s1 | .itecallT s0 s1 | .itecallF s0 s1 => ([s0, s1], none)
  | .ret => ([], none)
  | .syscallTerminate => ([], none)
  | .syscallPanic imm => ([], some imm)
  | .syscallPutc s0 s1 => ([s0, s1], none)

/-- Every register operand names one of the 256 slots and the immediate fits 16 bits. The operand types make it hold of
every instruction (10_state.md R24; 30_encoding.md R107). -/
def Instr.wellFormed (i : Instr) : Bool :=
  i.operands.1.all (fun r => decide (r.toNat < 256)) && i.operands.2.all (fun v => decide (v.toNat < 65536))

/-- A device range the platform accepts: `Begin <= End` (45_io_registry.md R286). -/
def Device.wellFormed (dev : Device) : Bool :=
  decide (dev.first.toNat ≤ dev.last.toNat)

/-- Two device ranges share an address (45_io_registry.md R288). -/
def Device.overlaps (a b : Device) : Bool :=
  decide (a.first.toNat ≤ b.last.toNat) && decide (b.first.toNat ≤ a.last.toNat)

/-- Every range well-formed and no two overlapping (45_io_registry.md R286, R288). -/
def devicesWellFormed : List Device → Bool
  | [] => true
  | dev :: rest => dev.wellFormed && rest.all (fun other => !dev.overlaps other) && devicesWellFormed rest

/-- A segment size: 1 to 65536 cells (00_scope.md R6). -/
def sizeWellFormed (n : Nat) : Bool :=
  decide (1 ≤ n) && decide (n ≤ 65536)

/-- Registered selectors are 3 to 255, each once: the three built-ins are never replaced (92_eei_decisions.md D25). -/
def syscallExtWellFormed : List SystemCallEntry → Bool
  | [] => true
  | entry :: rest =>
    decide (3 ≤ entry.selector.toNat) && rest.all (fun other => other.selector != entry.selector)
      && syscallExtWellFormed rest

/-- The constraints of 00_scope.md R6 on the parameters. -/
def Config.wellFormed (c : Config) : Bool :=
  sizeWellFormed c.codeSize && sizeWellFormed c.dataSize && sizeWellFormed c.stackSize && sizeWellFormed c.callSize
    && devicesWellFormed c.devices && syscallExtWellFormed c.syscallExt

end Sys2Proof
end

