-- ==== Sys2Proof/Decode.lean ====
section
/-! DEFINITION. Decode and encode (30_encoding.md): the codec between a 32-bit cell and the decoded record, the opcode map
from records to instructions, and the encoder from instructions to cells. -/

namespace Sys2Proof

/-- What the opcode map makes of a decoded record: an instruction, or an encoding no handler exists for, by name. -/
inductive Decoded where
  | instr (i : Instr)
  | undefined (u : Undefined)
  deriving DecidableEq, Repr

/-- What four bytes of an image in stream order mean, with the bytes that follow them. -/
inductive DecodedBytes where
  | instr (i : Instr) (rest : List Byte)
  | undefined (u : Undefined) (rest : List Byte)
  /-- Fewer than four bytes: no instruction word (30_encoding.md R100). -/
  | truncated
  deriving DecidableEq, Repr

/-- `decode` of 30_encoding.md R106: total, the fields of R100, R101, R103. -/
def decodeFields (w : Cell32) : DecodedInstruction :=
  { group := w.extractLsb' 0 3, op := w.extractLsb' 3 5, data0 := w.extractLsb' 8 8, data1 := w.extractLsb' 16 8,
    data2 := w.extractLsb' 24 8 }

/-- `encode` of 30_encoding.md R107: `group | (op << 3) | (data[0] << 8) | (data[1] << 16) | (data[2] << 24)`. -/
def encodeFields (r : DecodedInstruction) : Cell32 :=
  r.data2 ++ r.data1 ++ r.data0 ++ r.op ++ r.group

/-- `encode` as a caller meets it: values wider than their fields are refused (30_encoding.md R107;
93_implementation_defined.md U15). -/
def encodeChecked (v : FieldValues) : Option Cell32 :=
  if v.wellFormed then
    some (encodeFields { group := BitVec.ofNat 3 v.group, op := BitVec.ofNat 5 v.op, data0 := BitVec.ofNat 8 v.data0,
                         data1 := BitVec.ofNat 8 v.data1, data2 := BitVec.ofNat 8 v.data2 })
  else none

/-- The derived accessor `immediate()`: `(data[2] << 8) | data[1]` (30_encoding.md R104, R105; 90_conflicts.md C1). -/
def DecodedInstruction.immediate (r : DecodedInstruction) : Word :=
  r.data2 ++ r.data1

/-- The register index an arithmetic immediate form reads: the low byte of its immediate (40_arithmetic.md R131). -/
def immLow (imm : Word) : RegIdx :=
  imm.extractLsb' 0 8

/-- The high byte of an immediate, byte 3 of the word (30_encoding.md R105). -/
def immHigh (imm : Word) : Byte :=
  imm.extractLsb' 8 8

/-- The cell whose image bytes are, in stream order, `b0 b1 b2 b3` (30_encoding.md R100; 70_reset_and_hazards.md R415). -/
def cellOfBytes (b0 b1 b2 b3 : Byte) : Cell32 :=
  b3 ++ b2 ++ b1 ++ b0

/-- Byte `k` of a cell: `w[8k+7:8k]` (00_scope.md R8). -/
def cellByte (w : Cell32) (k : Nat) : Byte :=
  w.extractLsb' (8 * k) 8

/-- The table of group 0 (30_encoding.md R110); a slot with no handler is undefined (40_arithmetic.md R154). -/
def selectArithmetic (r : DecodedInstruction) : Decoded :=
  match r.op.toNat with
  | 0 => .instr (.add r.data0 r.data1 r.data2)
  | 1 => .instr (.sub r.data0 r.data1 r.data2)
  | 2 => .instr (.mul r.data0 r.data1 r.data2)
  | 3 => .instr (.div r.data0 r.data1 r.data2)
  | 4 => .instr (.rem r.data0 r.data1 r.data2)
  | 5 => .instr (.shl r.data0 r.data1 r.data2)
  | 6 => .instr (.shr r.data0 r.data1 r.data2)
  | 7 => .instr (.and r.data0 r.data1 r.data2)
  | 8 => .instr (.or r.data0 r.data1 r.data2)
  | 9 => .instr (.not r.data0 r.data1)
  | 10 => .instr (.xor r.data0 r.data1 r.data2)
  | 11 => .instr (.inc r.data0 r.data1)
  | 12 => .instr (.dec r.data0 r.data1)
  | 13 => .instr (.double r.data0 r.data1)
  | 14 => .instr (.halve r.data0 r.data1)
  | 15 => .instr (.addi r.data0 r.immediate)
  | 16 => .instr (.subi r.data0 r.immediate)
  | 17 => .instr (.muli r.data0 r.immediate)
  | 18 => .instr (.divi r.data0 r.immediate)
  | 19 => .instr (.remi r.data0 r.immediate)
  | 20 => .instr (.shli r.data0 r.immediate)
  | 21 => .instr (.shri r.data0 r.immediate)
  | _ => .undefined (.arithmetic r.op)

/-- The table of group 1 (30_encoding.md R111); a slot with no handler is undefined (41_move.md R187). -/
def selectMove (r : DecodedInstruction) : Decoded :=
  match r.op.toNat with
  | 0 => .instr (.move r.data0 r.data1)
  | 1 => .instr (.swap r.data0 r.data1)
  | 2 => .instr (.swapRm r.data0 r.data1)
  | 3 => .instr (.swapMm r.data0 r.data1)
  | 4 => .instr (.swapRi r.data0 r.immediate)
  | 5 => .instr (.swapMi r.data0 r.immediate)
  | 6 => .instr (.set r.data0 r.immediate)
  | 7 => .instr (.load r.data0 r.data1)
  | 8 => .instr (.loadI r.data0 r.immediate)
  | 9 => .instr (.store r.data0 r.data1)
  | 10 => .instr (.storeM r.data0 r.data1)
  | 11 => .instr (.storeIa r.data0 r.immediate)
  | 12 => .instr (.storeIv r.data0 r.immediate)
  | 13 => .instr (.push r.data1)
  | 14 => .instr (.pushI r.immediate)
  | 15 => .instr (.pop r.data0)
  | 16 => .instr (.peek r.data0)
  | _ => .undefined (.move r.op)

/-- The table of group 2 (30_encoding.md R112); a slot with no handler is undefined (42_compare.md R226). -/
def selectCompare (r : DecodedInstruction) : Decoded :=
  match r.op.toNat with
  | 0 => .instr (.eq r.data1 r.data2)
  | 1 => .instr (.eqAnd r.data1 r.data2)
  | 2 => .instr (.eqOr r.data1 r.data2)
  | 3 => .instr (.eqXor r.data1 r.data2)
  | 4 => .instr (.neq r.data1 r.data2)
  | 5 => .instr (.neqAnd r.data1 r.data2)
  | 6 => .instr (.neqOr r.data1 r.data2)
  | 7 => .instr (.neqXor r.data1 r.data2)
  | 8 => .instr (.lt r.data1 r.data2)
  | 9 => .instr (.ltAnd r.data1 r.data2)
  | 10 => .instr (.ltOr r.data1 r.data2)
  | 11 => .instr (.ltXor r.data1 r.data2)
  | 12 => .instr (.gt r.data1 r.data2)
  | 13 => .instr (.gtAnd r.data1 r.data2)
  | 14 => .instr (.gtOr r.data1 r.data2)
  | 15 => .instr (.gtXor r.data1 r.data2)
  | 16 => .instr (.le r.data1 r.data2)
  | 17 => .instr (.leAnd r.data1 r.data2)
  | 18 => .instr (.leOr r.data1 r.data2)
  | 19 => .instr (.leXor r.data1 r.data2)
  | 20 => .instr (.ge r.data1 r.data2)
  | 21 => .instr (.geAnd r.data1 r.data2)
  | 22 => .instr (.geOr r.data1 r.data2)
  | 23 => .instr (.geXor r.data1 r.data2)
  | _ => .undefined (.compare r.op)

/-- The table of group 3 (30_encoding.md R114); a slot with no handler is undefined (43_jump.md R261). -/
def selectJump (r : DecodedInstruction) : Decoded :=
  match r.op.toNat with
  | 0 => .instr (.bI r.immediate)
  | 1 => .instr (.callI r.immediate)
  | 2 => .instr (.bR r.data1)
  | 3 => .instr (.callR r.data1)
  | 4 => .instr (.btI r.immediate)
  | 5 => .instr (.calltI r.immediate)
  | 6 => .instr (.btR r.data1)
  | 7 => .instr (.calltR r.data1)
  | 8 => .instr (.bfI r.immediate)
  | 9 => .instr (.callfI r.immediate)
  | 10 => .instr (.bfR r.data1)
  | 11 => .instr (.callfR r.data1)
  | 12 => .instr (.iteT r.data1 r.data2)
  | 13 => .instr (.iteF r.data1 r.data2)
  | 14 => .instr (.itecallT r.data1 r.data2)
  | 15 => .instr (.itecallF r.data1 r.data2)
  | 16 => .instr .ret
  | _ => .undefined (.jump r.op)

/-- The table of group 4 (30_encoding.md R115): op 0 is `syscall`, whose selector is `data[0]`; entries 3 to 255 of the
system-call table are Invalid unless registered, which dispatch looks up (44_misc_syscall.md R270, R275, R276). -/
def selectMisc (r : DecodedInstruction) : Decoded :=
  match r.op.toNat with
  | 0 =>
    match r.data0.toNat with
    | 0 => .instr .syscallTerminate
    | 1 => .instr (.syscallPanic r.immediate)
    | 2 => .instr (.syscallPutc r.data1 r.data2)
    | _ => .undefined (.systemCommand r.data0 r.data1 r.data2)
  | _ => .undefined (.misc r.op)

/-- The outer table, indexed by group (30_encoding.md R109; 46_sequencer.md R304). -/
def select (r : DecodedInstruction) : Decoded :=
  match r.group.toNat with
  | 0 => selectArithmetic r
  | 1 => selectMove r
  | 2 => selectCompare r
  | 3 => selectJump r
  | 4 => selectMisc r
  | _ => .undefined (.noUnit r.group)

/-- What a 32-bit cell means: decoding (30_encoding.md R106) and the table lookups of dispatch (46_sequencer.md R304). -/
def decode (w : Cell32) : Decoded :=
  select (decodeFields w)

/-- The first instruction of a byte stream laid out as the load image lays out the code segment. -/
def decodeBytes : List Byte → DecodedBytes
  | b0 :: b1 :: b2 :: b3 :: rest =>
    match decode (cellOfBytes b0 b1 b2 b3) with
    | .instr i => .instr i rest
    | .undefined u => .undefined u rest
  | _ => .truncated

/-- A format R record (30_encoding.md R102). -/
def recordR (group : BitVec 3) (op : BitVec 5) (d s0 s1 : Byte) : DecodedInstruction :=
  { group := group, op := op, data0 := d, data1 := s0, data2 := s1 }

/-- A format I record: the immediate fills `data[1]` and `data[2]` (30_encoding.md R102, R105). -/
def recordI (group : BitVec 3) (op : BitVec 5) (d : Byte) (imm : Word) : DecodedInstruction :=
  { group := group, op := op, data0 := d, data1 := immLow imm, data2 := immHigh imm }

/-- The record of an instruction (30_encoding.md R110 to R115), ignored bytes 0 (R118). -/
def Instr.record : Instr → DecodedInstruction
  | .add d s0 s1 => recordR 0 0 d s0 s1
  | .sub d s0 s1 => recordR 0 1 d s0 s1
  | .mul d s0 s1 => recordR 0 2 d s0 s1
  | .div d s0 s1 => recordR 0 3 d s0 s1
  | .rem d s0 s1 => recordR 0 4 d s0 s1
  | .shl d s0 s1 => recordR 0 5 d s0 s1
  | .shr d s0 s1 => recordR 0 6 d s0 s1
  | .and d s0 s1 => recordR 0 7 d s0 s1
  | .or d s0 s1 => recordR 0 8 d s0 s1
  | .not d s0 => recordR 0 9 d s0 0
  | .xor d s0 s1 => recordR 0 10 d s0 s1
  | .inc d s0 => recordR 0 11 d s0 0
  | .dec d s0 => recordR 0 12 d s0 0
  | .double d s0 => recordR 0 13 d s0 0
  | .halve d s0 => recordR 0 14 d s0 0
  | .addi d imm => recordI 0 15 d imm
  | .subi d imm => recordI 0 16 d imm
  | .muli d imm => recordI 0 17 d imm
  | .divi d imm => recordI 0 18 d imm
  | .remi d imm => recordI 0 19 d imm
  | .shli d imm => recordI 0 20 d imm
  | .shri d imm => recordI 0 21 d imm
  | .move d s0 => recordR 1 0 d s0 0
  | .swap d s0 => recordR 1 1 d s0 0
  | .swapRm d s0 => recordR 1 2 d s0 0
  | .swapMm d s0 => recordR 1 3 d s0 0
  | .swapRi d imm => recordI 1 4 d imm
  | .swapMi d imm => recordI 1 5 d imm
  | .set d imm => recordI 1 6 d imm
  | .load d s0 => recordR 1 7 d s0 0
  | .loadI d imm => recordI 1 8 d imm
  | .store d s0 => recordR 1 9 d s0 0
  | .storeM d s0 => recordR 1 10 d s0 0
  | .storeIa d imm => recordI 1 11 d imm
  | .storeIv d imm => recordI 1 12 d imm
  | .push s0 => recordR 1 13 0 s0 0
  | .pushI imm => recordI 1 14 0 imm
  | .pop d => recordR 1 15 d 0 0
  | .peek d => recordR 1 16 d 0 0
  | .eq s0 s1 => recordR 2 0 0 s0 s1
  | .eqAnd s0 s1 => recordR 2 1 0 s0 s1
  | .eqOr s0 s1 => recordR 2 2 0 s0 s1
  | .eqXor s0 s1 => recordR 2 3 0 s0 s1
  | .neq s0 s1 => recordR 2 4 0 s0 s1
  | .neqAnd s0 s1 => recordR 2 5 0 s0 s1
  | .neqOr s0 s1 => recordR 2 6 0 s0 s1
  | .neqXor s0 s1 => recordR 2 7 0 s0 s1
  | .lt s0 s1 => recordR 2 8 0 s0 s1
  | .ltAnd s0 s1 => recordR 2 9 0 s0 s1
  | .ltOr s0 s1 => recordR 2 10 0 s0 s1
  | .ltXor s0 s1 => recordR 2 11 0 s0 s1
  | .gt s0 s1 => recordR 2 12 0 s0 s1
  | .gtAnd s0 s1 => recordR 2 13 0 s0 s1
  | .gtOr s0 s1 => recordR 2 14 0 s0 s1
  | .gtXor s0 s1 => recordR 2 15 0 s0 s1
  | .le s0 s1 => recordR 2 16 0 s0 s1
  | .leAnd s0 s1 => recordR 2 17 0 s0 s1
  | .leOr s0 s1 => recordR 2 18 0 s0 s1
  | .leXor s0 s1 => recordR 2 19 0 s0 s1
  | .ge s0 s1 => recordR 2 20 0 s0 s1
  | .geAnd s0 s1 => recordR 2 21 0 s0 s1
  | .geOr s0 s1 => recordR 2 22 0 s0 s1
  | .geXor s0 s1 => recordR 2 23 0 s0 s1
  | .bI imm => recordI 3 0 0 imm
  | .callI imm => recordI 3 1 0 imm
  | .bR s0 => recordR 3 2 0 s0 0
  | .callR s0 => recordR 3 3 0 s0 0
  | .btI imm => recordI 3 4 0 imm
  | .calltI imm => recordI 3 5 0 imm
  | .btR s0 => recordR 3 6 0 s0 0
  | .calltR s0 => recordR 3 7 0 s0 0
  | .bfI imm => recordI 3 8 0 imm
  | .callfI imm => recordI 3 9 0 imm
  | .bfR s0 => recordR 3 10 0 s0 0
  | .callfR s0 => recordR 3 11 0 s0 0
  | .iteT s0 s1 => recordR 3 12 0 s0 s1
  | .iteF s0 s1 => recordR 3 13 0 s0 s1
  | .itecallT s0 s1 => recordR 3 14 0 s0 s1
  | .itecallF s0 s1 => recordR 3 15 0 s0 s1
  | .ret => recordR 3 16 0 0 0
  | .syscallTerminate => recordR 4 0 0 0 0
  | .syscallPanic imm => recordI 4 0 1 imm
  | .syscallPutc s0 s1 => recordR 4 0 2 s0 s1

/-- The word of an instruction. -/
def encode (i : Instr) : Cell32 :=
  encodeFields i.record

/-- The instruction the decoder reads from the `nbits` low bits `w` of a word, every higher bit 0, laid out in image bytes. -/
def decodeTableWord (nbits w : Nat) : Option Instr :=
  let cell := BitVec.ofNat 32 (w % 2 ^ nbits)
  match decodeBytes [cellByte cell 0, cellByte cell 1, cellByte cell 2, cellByte cell 3] with
  | .instr i _ => some i
  | _ => none

end Sys2Proof
end

