-- ==== Sys2Proof/Machine/State.lean ====
section
/-! DEFINITION. The state of the machine as plain data: registers, the four memories, control flags and latches, the
functional units, the configuration (10_state.md; 20_memory.md R60; 47_functional_units.md R321; 00_scope.md R6), the
errors (60_exceptions.md R371), the reasons a step can stop, and the state right after reset (10_state.md R45). -/

namespace Sys2Proof.Machine

/-- The index of the instruction pointer `ip` (10_state.md R26). -/
def ipIdx : RegIdx := 8#8

/-- The index of the data-stack pointer `sp` (10_state.md R26). -/
def spIdx : RegIdx := 9#8

/-- The index of the predicate register `pred` (10_state.md R26). -/
def predIdx : RegIdx := 10#8

/-- The index of the call-stack pointer `csp` (10_state.md R26). -/
def cspIdx : RegIdx := 11#8

/-- The four address spaces of P16C (20_memory.md R60). -/
inductive Segment where
  | code
  | data
  | stack
  | call
  deriving DecidableEq, Repr

/-- The tables an index can be out of range of (60_exceptions.md R371 row 3). -/
inductive IndexTable where
  | register
  | group
  deriving DecidableEq, Repr

/-- The errors of 60_exceptions.md R371, in its order, each with its payload. Taking one is an effect of the machine
(R372), not a stop of the model. -/
inductive Error where
  | decodeRangeError
  | writeProtected (index : RegIdx)
  | indexOutOfRange (table : IndexTable) (index : Nat)
  | divideByZero
  | notImplemented (op : BitVec 5)
  | invalidMoveOperation (op : BitVec 5)
  | invalidCompareOperation (op : BitVec 5)
  | illegalJumpOperation (op : BitVec 5)
  | invalidMiscOperation (op : BitVec 5)
  | invalidSystemCommand (selector : Byte)
  | addressOutOfRange (segment : Segment) (address : Word)
  | unmappedIoAddress (address : Word)
  | overlappingDevice
  | panic (payload : Word)
  | unitNotRunning
  | unitAlreadyRunning
  | deviceError (address : Word) (e : Nat)
  deriving DecidableEq, Repr

/-- What an error carries beside its code (60_exceptions.md R371). -/
inductive ErrorPayload where
  | none
  | register (index : RegIdx)
  | tableIndex (table : IndexTable) (index : Nat)
  | op (op : BitVec 5)
  | selector (selector : Byte)
  | cell (segment : Segment) (address : Word)
  | address (address : Word)
  | word (payload : Word)
  | device (address : Word) (e : Nat)
  deriving DecidableEq, Repr

/-- The functional units of the catalogue (47_functional_units.md R333 to R339). -/
inductive UnitId where
  | rf
  | dec
  | alu
  | cmp
  | bru
  | memCode
  | memData
  | memStack
  | memCall
  | sys
  deriving DecidableEq, Repr

/-- A value on a unit's `result` port (47_functional_units.md R333 to R339). -/
inductive UnitResult where
  | word (v : Word)
  | cell (w : Cell32)
  | record (r : DecodedInstruction)
  | branch (ret link : Bool) (target : Word)
  | sys (halt emit : Bool) (c : BitVec 32)
  deriving DecidableEq, Repr

/-- The one outcome of an operation: a result XOR an error (47_functional_units.md R326). -/
inductive UnitOutcome where
  | result (r : UnitResult)
  | error (e : Error)
  deriving DecidableEq, Repr

/-- The phase of a unit (47_functional_units.md R321). `awaitOperand code got` is `AwaitOperand(i)` with `i - 1` operands
received; it holds the latched operation code and those operands, in order. -/
inductive Phase where
  | idle
  | awaitOp
  | awaitOperand (code : BitVec 8) (got : List (BitVec 32))
  | emit (o : UnitOutcome)
  deriving DecidableEq, Repr

/-- The state of one unit (47_functional_units.md R321). `stopping`: a `Stop` has been accepted while the outcome was
offered, and its reply is due when the unit is idle (R324). Storage is the register file and the memories of `State`
(log 10). -/
structure UnitState where
  running : Bool
  phase : Phase
  stopping : Bool
  deriving DecidableEq, Repr

/-- A unit as created: idle (47_functional_units.md R321; 10_state.md R45). -/
def UnitState.created : UnitState :=
  { running := false, phase := .idle, stopping := false }

/-- A unit waiting for an operation code. -/
def UnitState.awaiting : UnitState :=
  { running := true, phase := .awaitOp, stopping := false }

/-- The ten units. -/
structure Units where
  rf : UnitState
  dec : UnitState
  alu : UnitState
  cmp : UnitState
  bru : UnitState
  memCode : UnitState
  memData : UnitState
  memStack : UnitState
  memCall : UnitState
  sys : UnitState
  deriving DecidableEq, Repr

/-- Every unit in the same state. -/
def Units.all (u : UnitState) : Units :=
  { rf := u, dec := u, alu := u, cmp := u, bru := u, memCode := u, memData := u, memStack := u, memCall := u, sys := u }

/-- A memory: the bytes of its cells at the offsets the load image gives them within the segment's part
(70_reset_and_hazards.md R415; log 9), as address and byte pairs in one canonical form. -/
abbrev Memory := List Host.Cell

/-- What a byte no entry lists reads as. The spec leaves memory without an image open and takes 0 as reference
(10_state.md R45). DESIGN CHOICE, unsafe (log 3). -/
def Memory.unlisted : Byte := 0#8

/-- The canonical form: addresses strictly rising, no entry equal to what an unlisted address reads as. -/
abbrev Memory.Wf (m : Memory) : Prop :=
  m.Pairwise (fun x y => x.1 < y.1) ∧ ∀ c ∈ m, c.2 ≠ Memory.unlisted

/-- Every listed address is below `n`. -/
abbrev Memory.Below (m : Memory) (n : Nat) : Prop :=
  ∀ c ∈ m, c.1 < n

/-- How far the platform has gone with the device hooks since reset (45_io_registry.md R291). The model's own (log 24). -/
inductive Lifecycle where
  | beforeStartup
  | startedUp
  | startupFailed
  | shutDown
  deriving DecidableEq, Repr

/-- The state of the core (the tuple at the head of 10_state.md), the state of the units (47_functional_units.md R321), the
configuration (00_scope.md R6) and three fields of the model's own: `io`, the device accesses made so far (log 5), `started`,
whether a step has been taken since reset (log 8), and `lifecycle`, which hooks have been called since reset (log 24). -/
structure State where
  config : Config
  regs : Vector Word 256
  code : Memory
  data : Memory
  stack : Memory
  call : Memory
  advancePc : Bool
  halted : Bool
  error : Option Error
  out : List (BitVec 32)
  io : List IoAccess
  started : Bool
  lifecycle : Lifecycle
  units : Units
  deriving DecidableEq, Repr

/-- Why a step cannot complete. -/
inductive Fault where
  /-- A device never answers a `Load` or `Store`: the step in progress is blocked for ever (93_implementation_defined.md
  U20; 47_functional_units.md R354). Raised by every data access routed to a device. Safe: the machine is stuck there. -/
  | deviceNeverAnswers (address : Word)
  /-- The integrator offers an operation to a unit that is not accepting: the offer waits (47_functional_units.md R328).
  Raised by the composed step only, never by `step`. Safe: the composed core is stuck there (log 21). -/
  | unitNotAccepting (unit : UnitId)
  deriving DecidableEq, Repr

/-- Why the model gives an instruction no meaning. -/
inductive Refusal where
  /-- The instruction has no meaning yet. Raised by no arm of this model. Safe: nothing runs. -/
  | notModelled (mnemonic : String)
  deriving DecidableEq, Repr

/-- The result of a machine operation: it completes with a value, it raises an error having reached a state
(00_scope.md R9), or it never completes. -/
inductive Res (α : Type) where
  | done (a : α) (s : State)
  | raised (e : Error) (s : State)
  | hung (f : Fault)
  deriving DecidableEq, Repr

/-- What reset leaves unspecified, as an input (10_state.md R45): the general registers and the four memories. -/
structure Launch where
  regs : Vector Word 256
  code : Memory
  data : Memory
  stack : Memory
  call : Memory
  deriving DecidableEq, Repr

/-- The launch values of the reference configuration: every register and cell 0 (10_state.md R45). DESIGN CHOICE, unsafe
(logs 2 and 3). -/
def Launch.reference : Launch :=
  { regs := Vector.replicate 256 0#16, code := [], data := [], stack := [], call := [] }

/-- The register file after reset: constants and special registers at the values of 10_state.md R45, the others as
launched. Reset writes the special registers directly (70_reset_and_hazards.md R410). -/
def resetRegs (g : Vector Word 256) : Vector Word 256 :=
  (((((g.set 0 0#16).set 1 1#16).set 8 0#16).set 9 Config.stackTop).set 10 0#16).set 11 Config.stackTop

/-- The machine right after reset with configuration `c`, launch values `l` and no device access made
(10_state.md R45; 70_reset_and_hazards.md R410). -/
def State.launch (c : Config) (l : Launch) : State :=
  { config := c, regs := resetRegs l.regs, code := l.code, data := l.data, stack := l.stack, call := l.call,
    advancePc := true, halted := false, error := none, out := [], io := [], started := false,
    lifecycle := .beforeStartup, units := Units.all UnitState.created }

/-- The machine right after reset in the reference configuration, without an image. -/
def State.reset : State :=
  State.launch Config.reference Launch.reference

end Sys2Proof.Machine
end

