-- ==== Sys2Proof/Machine/Io.lean ====
section
/-! DEFINITION. The IO device registry (45_io_registry.md): which device an address reaches, and one access to it. -/

namespace Sys2Proof.Machine

/-- `RespondsTo(a)`: the range decides, unsigned (45_io_registry.md R286; 90_conflicts.md C7). -/
def respondsTo (dev : Device) (a : Word) : Bool :=
  decide (dev.first.toNat ≤ a.toNat) && decide (a.toNat ≤ dev.last.toNat)

/-- `registry_lookup(a)`: the first device in registration order that responds (45_io_registry.md R289). -/
def registryLookup : List Device → Word → Option Device
  | [], _ => none
  | dev :: rest, a => if respondsTo dev a then some dev else registryLookup rest a

/-- The data address an access names. -/
def accessAddress : IoAccess → Word
  | .load a => a
  | .store a _ => a

/-- How many of the accesses made so far went to `dev`. -/
def accessCount (dev : Device) (history : List IoAccess) : Nat :=
  (history.filter (fun p => respondsTo dev (accessAddress p))).length

/-- What `dev` answers: the device model of the configuration where it has an answer left, else a free value
(20_memory.md R84; logs 4 and 22). -/
def deviceAnswer (dev : Device) (history : List IoAccess) (access : IoAccess) : DeviceAnswer :=
  match dev.script[accessCount dev history]? with
  | some answer => answer
  | none => Config.deviceDraw history access

/-- One access to a device, made exactly once (20_memory.md R84, R88). An error of the device ends the instruction with
`DeviceError`, the access having happened (45_io_registry.md R292; 60_exceptions.md R372); a device that never answers
blocks the step (93_implementation_defined.md U20). -/
def callDevice (dev : Device) (access : IoAccess) (s : State) : Res Word :=
  match deviceAnswer dev s.io access with
  | .ok v => .done v { s with io := s.io ++ [access] }
  | .error e => .raised (.deviceError (accessAddress access) e) { s with io := s.io ++ [access] }
  | .never => .hung (.deviceNeverAnswers (accessAddress access))

end Sys2Proof.Machine
end

