-- ==== Sys2Proof/Machine/Ops.lean ====
section
/-! DEFINITION. The named operations of the machine: sequencing of operations, registers (10_state.md R22, R23), memory
cells and the segment router (20_memory.md R66 to R72), stacks (R75 to R77), the output sink (44_misc_syscall.md R274),
taking an error (60_exceptions.md R372) and the host's reset, the one way back from it (70_reset_and_hazards.md R410). -/

namespace Sys2Proof.Machine

/-- Do `r`, then `f` with what it gave. An error ends the instruction at once (00_scope.md R9). -/
def Res.andThen {α β : Type} (r : Res α) (f : α → State → Res β) : Res β :=
  match r with
  | .done a s => f a s
  | .raised e s => .raised e s
  | .hung why => .hung why

/-- Taking an error (60_exceptions.md R372): halt, latch it, end the step; nothing else changes. No saved pc, status or mode
and no handler exist: `ip` itself still names the faulting instruction (R370, R374). -/
def State.takeError (e : Error) (s : State) : State :=
  { s with halted := true, error := some e, advancePc := true }

/-- The outcome of an instruction: completed, or ended by the error it raised, or blocked. -/
def Res.outcome (r : Res Unit) : Host.Outcome State Fault Refusal :=
  match r with
  | .done _ s => .next s
  | .raised e s => .next (s.takeError e)
  | .hung why => .fault why

/-- Reset by the host, from any state (70_reset_and_hazards.md R410): the only way out of a halt (60_exceptions.md R384).
The general registers and the memories take the unspecified values `l` (10_state.md R45; log 19). The configuration and
the devices' history are not touched. -/
def State.hostReset (l : Launch) (s : State) : State :=
  { s with regs := resetRegs l.regs, code := l.code, data := l.data, stack := l.stack, call := l.call,
           advancePc := true, halted := false, error := none, out := [], started := false,
           lifecycle := .beforeStartup, units := Units.all UnitState.created }

/-- The numeric code of an error, the ordinal of its row (60_exceptions.md R371; 92_eei_decisions.md D26). -/
def Error.code : Error → Nat
  | .decodeRangeError => 1
  | .writeProtected _ => 2
  | .indexOutOfRange _ _ => 3
  | .divideByZero => 4
  | .notImplemented _ => 5
  | .invalidMoveOperation _ => 6
  | .invalidCompareOperation _ => 7
  | .illegalJumpOperation _ => 8
  | .invalidMiscOperation _ => 9
  | .invalidSystemCommand _ => 10
  | .addressOutOfRange _ _ => 11
  | .unmappedIoAddress _ => 12
  | .overlappingDevice => 13
  | .panic _ => 14
  | .unitNotRunning => 15
  | .unitAlreadyRunning => 16
  | .deviceError _ _ => 17

/-- The payload of an error. "An error value is the pair (code, payload)" (60_exceptions.md R371). -/
def Error.payload : Error → ErrorPayload
  | .decodeRangeError => .none
  | .writeProtected i => .register i
  | .indexOutOfRange table n => .tableIndex table n
  | .divideByZero => .none
  | .notImplemented op => .op op
  | .invalidMoveOperation op => .op op
  | .invalidCompareOperation op => .op op
  | .illegalJumpOperation op => .op op
  | .invalidMiscOperation op => .op op
  | .invalidSystemCommand sel => .selector sel
  | .addressOutOfRange seg a => .cell seg a
  | .unmappedIoAddress a => .address a
  | .overlappingDevice => .none
  | .panic v => .word v
  | .unitNotRunning => .none
  | .unitAlreadyRunning => .none
  | .deviceError a e => .device a e

/-- Register read `x[i]`: never fails; 0 and 1 read as constants (10_state.md R21, R22). -/
def State.reg (s : State) (i : RegIdx) : Word :=
  if i = 0#8 then 0#16 else if i = 1#8 then 1#16 else s.regs[i.toNat]'i.isLt

/-- Slot `i` overwritten with `v`, without the check of `writeReg`. -/
def State.setReg (i : RegIdx) (v : Word) (s : State) : State :=
  { s with regs := s.regs.set i.toNat v i.isLt }

/-- Registers 0 and 1 are write-protected, by index and never by value (10_state.md R23, R25). -/
def isWriteProtected (i : RegIdx) : Bool :=
  i == 0#8 || i == 1#8

/-- The check that register `i` may be written (10_state.md R23; 41_move.md R169 step 1). -/
def checkWritable (i : RegIdx) (s : State) : Res Unit :=
  if isWriteProtected i then .raised (.writeProtected i) s else .done () s

/-- Register write `x[i] <- v` (10_state.md R23). -/
def writeReg (i : RegIdx) (v : Word) (s : State) : Res Unit :=
  if isWriteProtected i then .raised (.writeProtected i) s else .done () (s.setReg i v)

/-- `ip` (10_state.md R26). -/
def State.ip (s : State) : Word := s.reg ipIdx

/-- `sp` (10_state.md R26). -/
def State.sp (s : State) : Word := s.reg spIdx

/-- `pred` (10_state.md R26). -/
def State.pred (s : State) : Word := s.reg predIdx

/-- `csp` (10_state.md R26). -/
def State.csp (s : State) : Word := s.reg cspIdx

/-- `next_instruction_address`: `(ip + 1) mod 2^16` (10_state.md R30). -/
def State.nextAddress (s : State) : Word := s.ip + 1#16

/-- The byte at offset `a`. -/
def Memory.readByte : Memory → Nat → Byte
  | [], _ => Memory.unlisted
  | (k, b) :: m, a => if k = a then b else Memory.readByte m a

/-- `(a, b)` put before the first entry of a higher address. -/
def Memory.insertByte (a : Nat) (b : Byte) : Memory → Memory
  | [] => [(a, b)]
  | (k, c) :: m => if k < a then (k, c) :: Memory.insertByte a b m else (a, b) :: (k, c) :: m

/-- The byte at offset `a` overwritten, keeping the canonical form: the value an unlisted address reads as removes the
entry. -/
def Memory.writeByte (m : Memory) (a : Nat) (b : Byte) : Memory :=
  if b = Memory.unlisted then m.filter (fun c => c.1 != a)
  else Memory.insertByte a b (m.filter (fun c => c.1 != a))

/-- The low byte of a Word, first in an image (20_memory.md R81; 70_reset_and_hazards.md R415). -/
def lowByte (v : Word) : Byte := v.extractLsb' 0 8

/-- The high byte of a Word. -/
def highByte (v : Word) : Byte := v.extractLsb' 8 8

/-- The 16-bit cell `a` (20_memory.md R62 to R64), little-endian in its two bytes (R81). -/
def Memory.readWord (m : Memory) (a : Nat) : Word :=
  m.readByte (2 * a + 1) ++ m.readByte (2 * a)

/-- The 16-bit cell `a` overwritten. -/
def Memory.writeWord (m : Memory) (a : Nat) (v : Word) : Memory :=
  (m.writeByte (2 * a) (lowByte v)).writeByte (2 * a + 1) (highByte v)

/-- The 32-bit cell `a` (20_memory.md R61), little-endian in its four bytes (30_encoding.md R100). -/
def Memory.readCell (m : Memory) (a : Nat) : Cell32 :=
  m.readByte (4 * a + 3) ++ m.readByte (4 * a + 2) ++ m.readByte (4 * a + 1) ++ m.readByte (4 * a)

/-- The 32-bit cell `a` overwritten. -/
def Memory.writeCell (m : Memory) (a : Nat) (w : Cell32) : Memory :=
  (((m.writeByte (4 * a) (w.extractLsb' 0 8)).writeByte (4 * a + 1) (w.extractLsb' 8 8)).writeByte (4 * a + 2)
    (w.extractLsb' 16 8)).writeByte (4 * a + 3) (w.extractLsb' 24 8)

/-- The memory of a segment; the four are disjoint (20_memory.md R65). -/
def State.mem (s : State) : Segment → Memory
  | .code => s.code
  | .data => s.data
  | .stack => s.stack
  | .call => s.call

/-- The memory of a segment replaced. -/
def State.setMem (seg : Segment) (m : Memory) (s : State) : State :=
  match seg with
  | .code => { s with code := m }
  | .data => { s with data := m }
  | .stack => { s with stack := m }
  | .call => { s with call := m }

/-- The number of cells of a segment; of the data segment, its RAM (20_memory.md R60). -/
def State.size (s : State) : Segment → Nat
  | .code => s.config.codeSize
  | .data => s.config.dataSize
  | .stack => s.config.stackSize
  | .call => s.config.callSize

/-- The byte at offset `n` of a segment's part of the image. -/
def State.byteAt (s : State) (seg : Segment) (n : Nat) : Byte :=
  (s.mem seg).readByte n

/-- `CodeRead(a)` (20_memory.md R66). -/
def codeRead (a : Word) (s : State) : Res Cell32 :=
  if s.config.codeSize ≤ a.toNat then .raised (.addressOutOfRange .code a) s
  else .done (s.code.readCell a.toNat) s

/-- Where the segment router sends a data address. -/
inductive Route where
  | ram
  | device (dev : Device)
  | unmapped
  deriving DecidableEq, Repr

/-- The segment router (20_memory.md R68): RAM wins below `DATA_SIZE`, else the registry. -/
def route (s : State) (a : Word) : Route :=
  if a.toNat < s.config.dataSize then .ram
  else match registryLookup s.config.devices a with
    | some dev => .device dev
    | none => .unmapped

/-- `MemRead(a)` (20_memory.md R70). -/
def memRead (a : Word) (s : State) : Res Word :=
  match route s a with
  | .ram => .done (s.data.readWord a.toNat) s
  | .device dev => callDevice dev (.load a) s
  | .unmapped => .raised (.unmappedIoAddress a) s

/-- `MemWrite(a, v)` (20_memory.md R71). -/
def memWrite (a v : Word) (s : State) : Res Unit :=
  match route s a with
  | .ram => .done () (s.setMem .data (s.data.writeWord a.toNat v))
  | .device dev => (callDevice dev (.store a v) s).andThen fun _ t => .done () t
  | .unmapped => .raised (.unmappedIoAddress a) s

/-- `MemProbe(a)` (20_memory.md R72): the admission check, without access. -/
def memProbe (a : Word) (s : State) : Res Unit :=
  match route s a with
  | .unmapped => .raised (.unmappedIoAddress a) s
  | _ => .done () s

/-- The two stacks (20_memory.md R75). -/
inductive StackId where
  | dataStack
  | callStack
  deriving DecidableEq, Repr

/-- The register that points into a stack (10_state.md R26). -/
def stackPointer : StackId → RegIdx
  | .dataStack => spIdx
  | .callStack => cspIdx

/-- The segment a stack lives in (20_memory.md R63, R64). -/
def stackSegment : StackId → Segment
  | .dataStack => .stack
  | .callStack => .call

/-- The cell a push stores to: the pointer plus 1, modulo 2^16 (20_memory.md R74, R75). -/
def pushAddress (k : StackId) (s : State) : Word :=
  s.reg (stackPointer k) + 1#16

/-- `Push(S, v)` (20_memory.md R75): the range check comes before any write. -/
def push (k : StackId) (v : Word) (s : State) : Res Unit :=
  if s.size (stackSegment k) ≤ (pushAddress k s).toNat then .raised (.addressOutOfRange (stackSegment k) (pushAddress k s)) s
  else .done () ((s.setReg (stackPointer k) (pushAddress k s)).setMem (stackSegment k)
    ((s.mem (stackSegment k)).writeWord (pushAddress k s).toNat v))

/-- `Peek(S)` (20_memory.md R77): the top cell, the pointer unmoved. -/
def peek (k : StackId) (s : State) : Res Word :=
  if s.size (stackSegment k) ≤ (s.reg (stackPointer k)).toNat then
    .raised (.addressOutOfRange (stackSegment k) (s.reg (stackPointer k))) s
  else .done ((s.mem (stackSegment k)).readWord (s.reg (stackPointer k)).toNat) s

/-- `Pop(S)` (20_memory.md R76): the top cell, then the pointer minus 1 modulo 2^16; the cell keeps its contents. -/
def pop (k : StackId) (s : State) : Res Word :=
  (peek k s).andThen fun v t => .done v (t.setReg (stackPointer k) (s.reg (stackPointer k) - 1#16))

/-- `emit(c)` (44_misc_syscall.md R274): one 32-bit value appended to the output sink. -/
def State.emit (c : BitVec 32) (s : State) : State :=
  { s with out := s.out ++ [c] }

end Sys2Proof.Machine
end

