-- ==== Sys2Proof/Machine/Arithmetic.lean ====
section
/-! DEFINITION. Group 0, the arithmetic unit (40_arithmetic.md): the fifteen functions, the dispatch of R131, and the 22
meanings. Results are unsigned modulo 2^16; no flag is written (R130). -/

namespace Sys2Proof.Machine

/-- A function of the arithmetic unit: `none` is `DivideByZero` (40_arithmetic.md R131). -/
abbrev ArithFn := Word → Word → Option Word

/-- `add` (40_arithmetic.md R132). -/
def addFn : ArithFn := fun a b => some (a + b)

/-- `sub` (40_arithmetic.md R133). -/
def subFn : ArithFn := fun a b => some (a - b)

/-- `mul`: the low 16 bits of the product (40_arithmetic.md R134). -/
def mulFn : ArithFn := fun a b => some (a * b)

/-- `div`: unsigned, truncating (40_arithmetic.md R135). -/
def divFn : ArithFn := fun a b => if b = 0#16 then none else some (a.udiv b)

/-- `rem`: unsigned (40_arithmetic.md R136). -/
def remFn : ArithFn := fun a b => if b = 0#16 then none else some (a.umod b)

/-- `shl`: the whole Word is the amount; 16 or more gives 0 (40_arithmetic.md R137). -/
def shlFn : ArithFn := fun a b => some (if 16 ≤ b.toNat then 0#16 else a <<< b.toNat)

/-- `shr`: logical; 16 or more gives 0 (40_arithmetic.md R138). -/
def shrFn : ArithFn := fun a b => some (if 16 ≤ b.toNat then 0#16 else a >>> b.toNat)

/-- `and` (40_arithmetic.md R139). -/
def andFn : ArithFn := fun a b => some (a &&& b)

/-- `or` (40_arithmetic.md R140). -/
def orFn : ArithFn := fun a b => some (a ||| b)

/-- `not`: the complement of `arg0`; `arg1` ignored (40_arithmetic.md R141). -/
def notFn : ArithFn := fun a _ => some (~~~a)

/-- `xor` (40_arithmetic.md R142). -/
def xorFn : ArithFn := fun a b => some (a ^^^ b)

/-- `inc`: `arg1` ignored (40_arithmetic.md R143). -/
def incFn : ArithFn := fun a _ => some (a + 1#16)

/-- `dec`: `arg1` ignored (40_arithmetic.md R144). -/
def decFn : ArithFn := fun a _ => some (a - 1#16)

/-- `double`: `arg1` ignored (40_arithmetic.md R145). -/
def doubleFn : ArithFn := fun a _ => some (a * 2#16)

/-- `halve`: a logical shift by 1; `arg1` ignored (40_arithmetic.md R146). -/
def halveFn : ArithFn := fun a _ => some (a >>> 1)

/-- The end of an arithmetic instruction (40_arithmetic.md R131): the function is evaluated before the write, so
`DivideByZero` comes before `WriteProtected` (60_exceptions.md R376). -/
def arithmetic (f : ArithFn) (d : RegIdx) (arg0 arg1 : Word) (s : State) : Res Unit :=
  match f arg0 arg1 with
  | none => .raised .divideByZero s
  | some r => writeReg d r s

/-- A register form: `arg0 = x[s0]`, `arg1 = x[s1]` (40_arithmetic.md R131). -/
def arithmeticR (f : ArithFn) (d s0 s1 : RegIdx) (s : State) : Res Unit :=
  arithmetic f d (s.reg s0) (s.reg s1) s

/-- An immediate form: `arg0 = x[imm[7:0]]`, `arg1 = imm` (40_arithmetic.md R131; 90_conflicts.md C2). -/
def arithmeticI (f : ArithFn) (d : RegIdx) (imm : Word) (s : State) : Res Unit :=
  arithmetic f d (s.reg (immLow imm)) imm s

/-- `add` (40_arithmetic.md R132). -/
def execAdd (d s0 s1 : RegIdx) (s : State) : Host.Outcome State Fault Refusal :=
  (arithmeticR addFn d s0 s1 s).outcome

/-- `sub` (40_arithmetic.md R133). -/
def execSub (d s0 s1 : RegIdx) (s : State) : Host.Outcome State Fault Refusal :=
  (arithmeticR subFn d s0 s1 s).outcome

/-- `mul` (40_arithmetic.md R134). -/
def execMul (d s0 s1 : RegIdx) (s : State) : Host.Outcome State Fault Refusal :=
  (arithmeticR mulFn d s0 s1 s).outcome

/-- `div` (40_arithmetic.md R135). -/
def execDiv (d s0 s1 : RegIdx) (s : State) : Host.Outcome State Fault Refusal :=
  (arithmeticR divFn d s0 s1 s).outcome

/-- `rem` (40_arithmetic.md R136). -/
def execRem (d s0 s1 : RegIdx) (s : State) : Host.Outcome State Fault Refusal :=
  (arithmeticR remFn d s0 s1 s).outcome

/-- `shl` (40_arithmetic.md R137). -/
def execShl (d s0 s1 : RegIdx) (s : State) : Host.Outcome State Fault Refusal :=
  (arithmeticR shlFn d s0 s1 s).outcome

/-- `shr` (40_arithmetic.md R138). -/
def execShr (d s0 s1 : RegIdx) (s : State) : Host.Outcome State Fault Refusal :=
  (arithmeticR shrFn d s0 s1 s).outcome

/-- `and` (40_arithmetic.md R139). -/
def execAnd (d s0 s1 : RegIdx) (s : State) : Host.Outcome State Fault Refusal :=
  (arithmeticR andFn d s0 s1 s).outcome

/-- `or` (40_arithmetic.md R140). -/
def execOr (d s0 s1 : RegIdx) (s : State) : Host.Outcome State Fault Refusal :=
  (arithmeticR orFn d s0 s1 s).outcome

/-- `not`: `s1` is ignored, register 0 stands for it (40_arithmetic.md R141). -/
def execNot (d s0 : RegIdx) (s : State) : Host.Outcome State Fault Refusal :=
  (arithmeticR notFn d s0 0#8 s).outcome

/-- `xor` (40_arithmetic.md R142). -/
def execXor (d s0 s1 : RegIdx) (s : State) : Host.Outcome State Fault Refusal :=
  (arithmeticR xorFn d s0 s1 s).outcome

/-- `inc`: `s1` is ignored, register 0 stands for it (40_arithmetic.md R143). -/
def execInc (d s0 : RegIdx) (s : State) : Host.Outcome State Fault Refusal :=
  (arithmeticR incFn d s0 0#8 s).outcome

/-- `dec`: `s1` is ignored, register 0 stands for it (40_arithmetic.md R144). -/
def execDec (d s0 : RegIdx) (s : State) : Host.Outcome State Fault Refusal :=
  (arithmeticR decFn d s0 0#8 s).outcome

/-- `double`: `s1` is ignored, register 0 stands for it (40_arithmetic.md R145). -/
def execDouble (d s0 : RegIdx) (s : State) : Host.Outcome State Fault Refusal :=
  (arithmeticR doubleFn d s0 0#8 s).outcome

/-- `halve`: `s1` is ignored, register 0 stands for it (40_arithmetic.md R146). -/
def execHalve (d s0 : RegIdx) (s : State) : Host.Outcome State Fault Refusal :=
  (arithmeticR halveFn d s0 0#8 s).outcome

/-- `addi` (40_arithmetic.md R147). -/
def execAddi (d : RegIdx) (imm : Word) (s : State) : Host.Outcome State Fault Refusal :=
  (arithmeticI addFn d imm s).outcome

/-- `subi` (40_arithmetic.md R148). -/
def execSubi (d : RegIdx) (imm : Word) (s : State) : Host.Outcome State Fault Refusal :=
  (arithmeticI subFn d imm s).outcome

/-- `muli` (40_arithmetic.md R149). -/
def execMuli (d : RegIdx) (imm : Word) (s : State) : Host.Outcome State Fault Refusal :=
  (arithmeticI mulFn d imm s).outcome

/-- `divi` (40_arithmetic.md R150). -/
def execDivi (d : RegIdx) (imm : Word) (s : State) : Host.Outcome State Fault Refusal :=
  (arithmeticI divFn d imm s).outcome

/-- `remi` (40_arithmetic.md R151). -/
def execRemi (d : RegIdx) (imm : Word) (s : State) : Host.Outcome State Fault Refusal :=
  (arithmeticI remFn d imm s).outcome

/-- `shli` (40_arithmetic.md R152). -/
def execShli (d : RegIdx) (imm : Word) (s : State) : Host.Outcome State Fault Refusal :=
  (arithmeticI shlFn d imm s).outcome

/-- `shri` (40_arithmetic.md R153). -/
def execShri (d : RegIdx) (imm : Word) (s : State) : Host.Outcome State Fault Refusal :=
  (arithmeticI shrFn d imm s).outcome

end Sys2Proof.Machine
end

