-- ==== Sys2Proof/Machine/Flags.lean ====
section
/-! DEFINITION. The predicate register's reading and writing (10_state.md R33; 00_scope.md R8) and the functions compares
compute it with (42_compare.md R201). There is no other flag (10_state.md R34). -/

namespace Sys2Proof.Machine

/-- `bool(v)`: any non-zero Word is true (00_scope.md R8; 10_state.md R33). -/
def boolOf (v : Word) : Bool :=
  v != 0#16

/-- `word(b)`: 1 for true, 0 for false (00_scope.md R8). -/
def wordOf (b : Bool) : Word :=
  if b then 1#16 else 0#16

/-- `eq(a, b)` (42_compare.md R201). -/
def predEq (a b : Word) : Bool := a == b

/-- `neq(a, b)` (42_compare.md R201). -/
def predNeq (a b : Word) : Bool := a != b

/-- `lt(a, b)`, unsigned (42_compare.md R201). -/
def predLt (a b : Word) : Bool := a.ult b

/-- `gt(a, b)`, unsigned (42_compare.md R201). -/
def predGt (a b : Word) : Bool := b.ult a

/-- `le(a, b)`, unsigned (42_compare.md R201). -/
def predLe (a b : Word) : Bool := a.ule b

/-- `ge(a, b)`, unsigned (42_compare.md R201). -/
def predGe (a b : Word) : Bool := b.ule a

/-- The combinator overwrite (42_compare.md R201). -/
def combineOverwrite (_old new : Bool) : Bool := new

/-- The combinator and (42_compare.md R201). -/
def combineAnd (old new : Bool) : Bool := old && new

/-- The combinator or (42_compare.md R201). -/
def combineOr (old new : Bool) : Bool := old || new

/-- The combinator xor (42_compare.md R201). -/
def combineXor (old new : Bool) : Bool := old != new

/-- The new predicate value of a compare: the combinator against the current predicate (42_compare.md R200). -/
def comparePred (p : Word → Word → Bool) (c : Bool → Bool → Bool) (pred a b : Word) : Word :=
  wordOf (c (boolOf pred) (p a b))

end Sys2Proof.Machine
end

