-- ==== Sys2Proof/Machine/Compare.lean ====
section
/-! DEFINITION. Group 2, the compare unit (42_compare.md): the algorithm of R200 and the 24 meanings. A compare writes `pred`
only and raises no error. -/

namespace Sys2Proof.Machine

/-- The compare algorithm (42_compare.md R200) for relational predicate `p` and combinator `c`. -/
def compareWith (p : Word → Word → Bool) (c : Bool → Bool → Bool) (s0 s1 : RegIdx) (s : State) : Res Unit :=
  .done () (s.setReg predIdx (comparePred p c s.pred (s.reg s0) (s.reg s1)))

/-- `eq` (42_compare.md R202). -/
def execEq (s0 s1 : RegIdx) (s : State) : Host.Outcome State Fault Refusal :=
  (compareWith predEq combineOverwrite s0 s1 s).outcome

/-- `eq.and` (42_compare.md R203). -/
def execEqAnd (s0 s1 : RegIdx) (s : State) : Host.Outcome State Fault Refusal :=
  (compareWith predEq combineAnd s0 s1 s).outcome

/-- `eq.or` (42_compare.md R204). -/
def execEqOr (s0 s1 : RegIdx) (s : State) : Host.Outcome State Fault Refusal :=
  (compareWith predEq combineOr s0 s1 s).outcome

/-- `eq.xor` (42_compare.md R205). -/
def execEqXor (s0 s1 : RegIdx) (s : State) : Host.Outcome State Fault Refusal :=
  (compareWith predEq combineXor s0 s1 s).outcome

/-- `neq` (42_compare.md R206). -/
def execNeq (s0 s1 : RegIdx) (s : State) : Host.Outcome State Fault Refusal :=
  (compareWith predNeq combineOverwrite s0 s1 s).outcome

/-- `neq.and` (42_compare.md R207). -/
def execNeqAnd (s0 s1 : RegIdx) (s : State) : Host.Outcome State Fault Refusal :=
  (compareWith predNeq combineAnd s0 s1 s).outcome

/-- `neq.or` (42_compare.md R208). -/
def execNeqOr (s0 s1 : RegIdx) (s : State) : Host.Outcome State Fault Refusal :=
  (compareWith predNeq combineOr s0 s1 s).outcome

/-- `neq.xor` (42_compare.md R209). -/
def execNeqXor (s0 s1 : RegIdx) (s : State) : Host.Outcome State Fault Refusal :=
  (compareWith predNeq combineXor s0 s1 s).outcome

/-- `lt` (42_compare.md R210). -/
def execLt (s0 s1 : RegIdx) (s : State) : Host.Outcome State Fault Refusal :=
  (compareWith predLt combineOverwrite s0 s1 s).outcome

/-- `lt.and` (42_compare.md R211). -/
def execLtAnd (s0 s1 : RegIdx) (s : State) : Host.Outcome State Fault Refusal :=
  (compareWith predLt combineAnd s0 s1 s).outcome

/-- `lt.or` (42_compare.md R212). -/
def execLtOr (s0 s1 : RegIdx) (s : State) : Host.Outcome State Fault Refusal :=
  (compareWith predLt combineOr s0 s1 s).outcome

/-- `lt.xor` (42_compare.md R213). -/
def execLtXor (s0 s1 : RegIdx) (s : State) : Host.Outcome State Fault Refusal :=
  (compareWith predLt combineXor s0 s1 s).outcome

/-- `gt` (42_compare.md R214). -/
def execGt (s0 s1 : RegIdx) (s : State) : Host.Outcome State Fault Refusal :=
  (compareWith predGt combineOverwrite s0 s1 s).outcome

/-- `gt.and` (42_compare.md R215). -/
def execGtAnd (s0 s1 : RegIdx) (s : State) : Host.Outcome State Fault Refusal :=
  (compareWith predGt combineAnd s0 s1 s).outcome

/-- `gt.or` (42_compare.md R216). -/
def execGtOr (s0 s1 : RegIdx) (s : State) : Host.Outcome State Fault Refusal :=
  (compareWith predGt combineOr s0 s1 s).outcome

/-- `gt.xor` (42_compare.md R217). -/
def execGtXor (s0 s1 : RegIdx) (s : State) : Host.Outcome State Fault Refusal :=
  (compareWith predGt combineXor s0 s1 s).outcome

/-- `le` (42_compare.md R218). -/
def execLe (s0 s1 : RegIdx) (s : State) : Host.Outcome State Fault Refusal :=
  (compareWith predLe combineOverwrite s0 s1 s).outcome

/-- `le.and` (42_compare.md R219). -/
def execLeAnd (s0 s1 : RegIdx) (s : State) : Host.Outcome State Fault Refusal :=
  (compareWith predLe combineAnd s0 s1 s).outcome

/-- `le.or` (42_compare.md R220). -/
def execLeOr (s0 s1 : RegIdx) (s : State) : Host.Outcome State Fault Refusal :=
  (compareWith predLe combineOr s0 s1 s).outcome

/-- `le.xor` (42_compare.md R221). -/
def execLeXor (s0 s1 : RegIdx) (s : State) : Host.Outcome State Fault Refusal :=
  (compareWith predLe combineXor s0 s1 s).outcome

/-- `ge` (42_compare.md R222). -/
def execGe (s0 s1 : RegIdx) (s : State) : Host.Outcome State Fault Refusal :=
  (compareWith predGe combineOverwrite s0 s1 s).outcome

/-- `ge.and` (42_compare.md R223). -/
def execGeAnd (s0 s1 : RegIdx) (s : State) : Host.Outcome State Fault Refusal :=
  (compareWith predGe combineAnd s0 s1 s).outcome

/-- `ge.or` (42_compare.md R224). -/
def execGeOr (s0 s1 : RegIdx) (s : State) : Host.Outcome State Fault Refusal :=
  (compareWith predGe combineOr s0 s1 s).outcome

/-- `ge.xor` (42_compare.md R225). -/
def execGeXor (s0 s1 : RegIdx) (s : State) : Host.Outcome State Fault Refusal :=
  (compareWith predGe combineXor s0 s1 s).outcome

end Sys2Proof.Machine
end

