-- ==== Sys2Proof/Machine/Jump.lean ====
section
/-! DEFINITION. Group 3, the jump unit (43_jump.md): the primitives of R240 to R242 and the 17 meanings. Every jump that
completes clears `advance_pc`; targets are read before anything is written (R243). -/

namespace Sys2Proof.Machine

/-- `ip <- addr; advance_pc <- false` (43_jump.md R240); the target is not checked here. -/
def State.jumpTo (addr : Word) (s : State) : State :=
  { s.setReg ipIdx addr with advancePc := false }

/-- `branch(addr, is_call)` (43_jump.md R240). -/
def branch (addr : Word) (isCall : Bool) (s : State) : Res Unit :=
  if isCall then (push .callStack s.nextAddress s).andThen fun _ t => .done () (t.jumpTo addr)
  else .done () (s.jumpTo addr)

/-- `conditional(cond, on_true, is_call)` (43_jump.md R241). Whether an untaken call pushes is a parameter. -/
def conditional (cond : Bool) (onTrue : Word) (isCall : Bool) (s : State) : Res Unit :=
  if cond then branch onTrue isCall s
  else branch s.nextAddress (isCall && s.config.untakenCallPushes) s

/-- `select(cond, on_true, on_false, is_call)` (43_jump.md R242). -/
def selectBranch (cond : Bool) (onTrue onFalse : Word) (isCall : Bool) (s : State) : Res Unit :=
  branch (if cond then onTrue else onFalse) isCall s

/-- `b.i` (43_jump.md R244). -/
def execBI (imm : Word) (s : State) : Host.Outcome State Fault Refusal :=
  (branch imm false s).outcome

/-- `call.i` (43_jump.md R245). -/
def execCallI (imm : Word) (s : State) : Host.Outcome State Fault Refusal :=
  (branch imm true s).outcome

/-- `b.r` (43_jump.md R246). -/
def execBR (s0 : RegIdx) (s : State) : Host.Outcome State Fault Refusal :=
  (branch (s.reg s0) false s).outcome

/-- `call.r` (43_jump.md R247). -/
def execCallR (s0 : RegIdx) (s : State) : Host.Outcome State Fault Refusal :=
  (branch (s.reg s0) true s).outcome

/-- `bt.i` (43_jump.md R248). -/
def execBtI (imm : Word) (s : State) : Host.Outcome State Fault Refusal :=
  (conditional (boolOf s.pred) imm false s).outcome

/-- `callt.i` (43_jump.md R249). -/
def execCalltI (imm : Word) (s : State) : Host.Outcome State Fault Refusal :=
  (conditional (boolOf s.pred) imm true s).outcome

/-- `bt.r` (43_jump.md R250). -/
def execBtR (s0 : RegIdx) (s : State) : Host.Outcome State Fault Refusal :=
  (conditional (boolOf s.pred) (s.reg s0) false s).outcome

/-- `callt.r` (43_jump.md R251). -/
def execCalltR (s0 : RegIdx) (s : State) : Host.Outcome State Fault Refusal :=
  (conditional (boolOf s.pred) (s.reg s0) true s).outcome

/-- `bf.i` (43_jump.md R252). -/
def execBfI (imm : Word) (s : State) : Host.Outcome State Fault Refusal :=
  (conditional (!boolOf s.pred) imm false s).outcome

/-- `callf.i` (43_jump.md R253). -/
def execCallfI (imm : Word) (s : State) : Host.Outcome State Fault Refusal :=
  (conditional (!boolOf s.pred) imm true s).outcome

/-- `bf.r` (43_jump.md R254). -/
def execBfR (s0 : RegIdx) (s : State) : Host.Outcome State Fault Refusal :=
  (conditional (!boolOf s.pred) (s.reg s0) false s).outcome

/-- `callf.r` (43_jump.md R255). -/
def execCallfR (s0 : RegIdx) (s : State) : Host.Outcome State Fault Refusal :=
  (conditional (!boolOf s.pred) (s.reg s0) true s).outcome

/-- `ite.t` (43_jump.md R256). -/
def execIteT (s0 s1 : RegIdx) (s : State) : Host.Outcome State Fault Refusal :=
  (selectBranch (boolOf s.pred) (s.reg s0) (s.reg s1) false s).outcome

/-- `ite.f` (43_jump.md R257). -/
def execIteF (s0 s1 : RegIdx) (s : State) : Host.Outcome State Fault Refusal :=
  (selectBranch (!boolOf s.pred) (s.reg s0) (s.reg s1) false s).outcome

/-- `itecall.t` (43_jump.md R258). -/
def execItecallT (s0 s1 : RegIdx) (s : State) : Host.Outcome State Fault Refusal :=
  (selectBranch (boolOf s.pred) (s.reg s0) (s.reg s1) true s).outcome

/-- `itecall.f` (43_jump.md R259). -/
def execItecallF (s0 s1 : RegIdx) (s : State) : Host.Outcome State Fault Refusal :=
  (selectBranch (!boolOf s.pred) (s.reg s0) (s.reg s1) true s).outcome

/-- `ret` (43_jump.md R260). -/
def execRet (s : State) : Host.Outcome State Fault Refusal :=
  ((pop .callStack s).andThen fun v t => .done () (t.jumpTo v)).outcome

end Sys2Proof.Machine
end

