-- ==== Sys2Proof/Machine/Misc.lean ====
section
/-! DEFINITION. Group 4, the misc unit and the built-in system calls (44_misc_syscall.md). -/

namespace Sys2Proof.Machine

/-- The call registered for a selector; Invalid where none is (44_misc_syscall.md R276). -/
def registeredCall : List SystemCallEntry → Byte → SystemCall
  | [], _ => .invalid
  | entry :: rest, selector => if entry.selector = selector then entry.call else registeredCall rest selector

/-- The system-call table: the built-ins at 0, 1 and 2, which nothing replaces, and what the platform has registered in
`SYSCALL_EXT` at 3 to 255 (44_misc_syscall.md R270; 00_scope.md R6; log 20). -/
def systemCallTable (c : Config) (selector : Byte) : SystemCall :=
  match selector.toNat with
  | 0 => .terminate
  | 1 => .panic
  | 2 => .putc
  | _ => registeredCall c.syscallExt selector

/-- The code point `putc` composes (44_misc_syscall.md R273): `same` says that the two register INDICES are equal. -/
def putcCode (same : Bool) (a b : Word) : BitVec 32 :=
  if same then (a.extractLsb' 0 8).setWidth 32 else b ++ a

/-- `syscall terminate`: the halt flag, no error; `advance_pc` is not touched (44_misc_syscall.md R271). -/
def execSyscallTerminate (s : State) : Host.Outcome State Fault Refusal :=
  (Res.done () { s with halted := true }).outcome

/-- `syscall panic`: raises `Panic(imm)` (44_misc_syscall.md R272). -/
def execSyscallPanic (imm : Word) (s : State) : Host.Outcome State Fault Refusal :=
  (Res.raised (.panic imm) s).outcome

/-- `syscall putc` (44_misc_syscall.md R273). -/
def execSyscallPutc (s0 s1 : RegIdx) (s : State) : Host.Outcome State Fault Refusal :=
  (Res.done () (s.emit (putcCode (s0 == s1) (s.reg s0) (s.reg s1)))).outcome

/-- What is done with a result `{halt, emit, c}` of a system call (47_functional_units.md R339). -/
def State.applyResult (halt emit : Bool) (c : BitVec 32) (s : State) : State :=
  if emit then ({ s with halted := s.halted || halt }).emit c else { s with halted := s.halted || halt }

/-- `syscall` with selector 3 to 255, through the table (44_misc_syscall.md R270): the rule of a registered entry, or
`InvalidSystemCommand` (R276). -/
def systemCall (selector s0 s1 : Byte) (s : State) : Res Unit :=
  match systemCallTable s.config selector with
  | .terminate => .done () (s.applyResult true false 0#32)
  | .panic => .raised (.panic (s1 ++ s0)) s
  | .putc => .done () (s.emit (putcCode (s0 == s1) (s.reg s0) (s.reg s1)))
  | .platform =>
    match Config.systemCallDraw selector (s1 ++ s0) (s.reg s0) (s.reg s1) (s0 == s1) with
    | .result halt emit c => .done () (s.applyResult halt emit c)
    | .panic payload => .raised (.panic payload) s
  | .invalid => .raised (.invalidSystemCommand selector) s

end Sys2Proof.Machine
end

