-- ==== Sys2Proof/Machine/Operands.lean ====
section
/-! DEFINITION. The four operand kinds of 30_encoding.md R120 and the two shapes of the move group over them: a copy
into a place and an exchange of two places (41_move.md R168, R169). -/

namespace Sys2Proof.Machine

/-- What an operand can name as a destination (30_encoding.md R120): a register, or a data cell addressed by a register or
by the immediate. -/
inductive Place where
  | reg (b : RegIdx)
  | memByReg (b : RegIdx)
  | memByImm (imm : Word)
  deriving DecidableEq, Repr

/-- A source operand: a place, or the literal, which is never a destination (30_encoding.md R120). -/
inductive Operand where
  | place (p : Place)
  | literal (imm : Word)
  deriving DecidableEq, Repr

/-- The data address a place names in state `s`, if it names a data cell: no offset, scaling or base update
(41_move.md R177, R178). -/
def placeAddress (p : Place) (s : State) : Option Word :=
  match p with
  | .reg _ => none
  | .memByReg b => some (s.reg b)
  | .memByImm imm => some imm

/-- The checks on a destination before anything is read or written: write protection, or the probe of the address
(41_move.md R169 steps 1 and 3). -/
def admitPlace (p : Place) (s : State) : Res Unit :=
  match p with
  | .reg b => checkWritable b s
  | .memByReg b => memProbe (s.reg b) s
  | .memByImm imm => memProbe imm s

/-- The value read from a place (30_encoding.md R120). -/
def readPlace (p : Place) (s : State) : Res Word :=
  match p with
  | .reg b => .done (s.reg b) s
  | .memByReg b => memRead (s.reg b) s
  | .memByImm imm => memRead imm s

/-- A place written (30_encoding.md R120). -/
def writePlace (p : Place) (v : Word) (s : State) : Res Unit :=
  match p with
  | .reg b => writeReg b v s
  | .memByReg b => memWrite (s.reg b) v s
  | .memByImm imm => memWrite imm v s

/-- The value of a source operand (30_encoding.md R120). -/
def readOperand (o : Operand) (s : State) : Res Word :=
  match o with
  | .place p => readPlace p s
  | .literal imm => .done imm s

/-- A copy: admit the destination, read the source, write the destination (41_move.md R169). -/
def copyInto (dst : Place) (src : Operand) (s : State) : Res Unit :=
  (admitPlace dst s).andThen fun _ s1 =>
    (readOperand src s1).andThen fun v s2 => writePlace dst v s2

/-- Two registers exchanged, both checked first (41_move.md R171). -/
def swapRegisters (d s0 : RegIdx) (s : State) : Res Unit :=
  (checkWritable d s).andThen fun _ s1 =>
    (checkWritable s0 s1).andThen fun _ s2 =>
      (writeReg d (s.reg s0) s2).andThen fun _ s3 => writeReg s0 (s.reg d) s3

/-- Register `d` exchanged with the data cell `a`: the cell is read, then written, and the register last
(41_move.md R172, R174). -/
def swapRegisterCell (d : RegIdx) (a : Word) (s : State) : Res Unit :=
  (checkWritable d s).andThen fun _ s1 =>
    (memRead a s1).andThen fun m s2 =>
      (memWrite a (s.reg d) s2).andThen fun _ s3 => writeReg d m s3

/-- The data cells `a1` and `a2` exchanged: both probed, both read, then both written (41_move.md R173, R175). -/
def swapCells (a1 a2 : Word) (s : State) : Res Unit :=
  (memProbe a1 s).andThen fun _ s1 =>
    (memProbe a2 s1).andThen fun _ s2 =>
      (memRead a1 s2).andThen fun m1 s3 =>
        (memRead a2 s3).andThen fun m2 s4 =>
          (memWrite a1 m2 s4).andThen fun _ s5 => memWrite a2 m1 s5

end Sys2Proof.Machine
end

