-- ==== Sys2Proof/Machine/Move.lean ====
section
/-! DEFINITION. Group 1, the move unit (41_move.md): one meaning per opcode over the operand kinds of Operands.lean. No move
instruction reads or writes a flag. -/

namespace Sys2Proof.Machine

/-- `move` (41_move.md R170). -/
def execMove (d s0 : RegIdx) (s : State) : Host.Outcome State Fault Refusal :=
  (copyInto (.reg d) (.place (.reg s0)) s).outcome

/-- `swap`: both registers are checked, `d` first (41_move.md R171). -/
def execSwap (d s0 : RegIdx) (s : State) : Host.Outcome State Fault Refusal :=
  (swapRegisters d s0 s).outcome

/-- `swap.rm` (41_move.md R172). -/
def execSwapRm (d s0 : RegIdx) (s : State) : Host.Outcome State Fault Refusal :=
  (swapRegisterCell d (s.reg s0) s).outcome

/-- `swap.mm` (41_move.md R173). -/
def execSwapMm (d s0 : RegIdx) (s : State) : Host.Outcome State Fault Refusal :=
  (swapCells (s.reg d) (s.reg s0) s).outcome

/-- `swap.ri` (41_move.md R174). -/
def execSwapRi (d : RegIdx) (imm : Word) (s : State) : Host.Outcome State Fault Refusal :=
  (swapRegisterCell d imm s).outcome

/-- `swap.mi` (41_move.md R175). -/
def execSwapMi (d : RegIdx) (imm : Word) (s : State) : Host.Outcome State Fault Refusal :=
  (swapCells (s.reg d) imm s).outcome

/-- `set` (41_move.md R176). -/
def execSet (d : RegIdx) (imm : Word) (s : State) : Host.Outcome State Fault Refusal :=
  (copyInto (.reg d) (.literal imm) s).outcome

/-- `load` (41_move.md R177). -/
def execLoad (d s0 : RegIdx) (s : State) : Host.Outcome State Fault Refusal :=
  (copyInto (.reg d) (.place (.memByReg s0)) s).outcome

/-- `load.i` (41_move.md R178). -/
def execLoadI (d : RegIdx) (imm : Word) (s : State) : Host.Outcome State Fault Refusal :=
  (copyInto (.reg d) (.place (.memByImm imm)) s).outcome

/-- `store` (41_move.md R179). -/
def execStore (d s0 : RegIdx) (s : State) : Host.Outcome State Fault Refusal :=
  (copyInto (.memByReg d) (.place (.reg s0)) s).outcome

/-- `store.m` (41_move.md R180). -/
def execStoreM (d s0 : RegIdx) (s : State) : Host.Outcome State Fault Refusal :=
  (copyInto (.memByReg d) (.place (.memByReg s0)) s).outcome

/-- `store.ia`: `data[x[d]] <- data[imm]` (41_move.md R181). -/
def execStoreIa (d : RegIdx) (imm : Word) (s : State) : Host.Outcome State Fault Refusal :=
  (copyInto (.memByReg d) (.place (.memByImm imm)) s).outcome

/-- `store.iv` (41_move.md R182). -/
def execStoreIv (d : RegIdx) (imm : Word) (s : State) : Host.Outcome State Fault Refusal :=
  (copyInto (.memByReg d) (.literal imm) s).outcome

/-- `push`: the value is read before `sp` moves (41_move.md R183). -/
def execPush (s0 : RegIdx) (s : State) : Host.Outcome State Fault Refusal :=
  (push .dataStack (s.reg s0) s).outcome

/-- `push.i` (41_move.md R184). -/
def execPushI (imm : Word) (s : State) : Host.Outcome State Fault Refusal :=
  (push .dataStack imm s).outcome

/-- `pop`: the write of `x[d]` comes after the pointer moved, so `pop sp` ends with the popped value (41_move.md R185). -/
def execPop (d : RegIdx) (s : State) : Host.Outcome State Fault Refusal :=
  ((checkWritable d s).andThen fun _ s1 => (pop .dataStack s1).andThen fun v s2 => writeReg d v s2).outcome

/-- `peek`: the pointer does not move (41_move.md R186). -/
def execPeek (d : RegIdx) (s : State) : Host.Outcome State Fault Refusal :=
  ((checkWritable d s).andThen fun _ s1 => (peek .dataStack s1).andThen fun v s2 => writeReg d v s2).outcome

end Sys2Proof.Machine
end

