-- ==== Sys2Proof/Machine/Dispatch.lean ====
section
/-! DEFINITION. Dispatch (46_sequencer.md R304): one arm per instruction, each one direct call of its meaning. -/

namespace Sys2Proof.Machine

-- The meaning of an instruction in a state: the effect of its handler, before the step's advance (46_sequencer.md R301).
def exec (i : Instr) (s : State) : Host.Outcome State Fault Refusal :=
  match i with
  | .add d s0 s1 => Sys2Proof.Machine.execAdd d s0 s1 s
  | .sub d s0 s1 => Sys2Proof.Machine.execSub d s0 s1 s
  | .mul d s0 s1 => Sys2Proof.Machine.execMul d s0 s1 s
  | .div d s0 s1 => Sys2Proof.Machine.execDiv d s0 s1 s
  | .rem d s0 s1 => Sys2Proof.Machine.execRem d s0 s1 s
  | .shl d s0 s1 => Sys2Proof.Machine.execShl d s0 s1 s
  | .shr d s0 s1 => Sys2Proof.Machine.execShr d s0 s1 s
  | .and d s0 s1 => Sys2Proof.Machine.execAnd d s0 s1 s
  | .or d s0 s1 => Sys2Proof.Machine.execOr d s0 s1 s
  | .not d s0 => Sys2Proof.Machine.execNot d s0 s
  | .xor d s0 s1 => Sys2Proof.Machine.execXor d s0 s1 s
  | .inc d s0 => Sys2Proof.Machine.execInc d s0 s
  | .dec d s0 => Sys2Proof.Machine.execDec d s0 s
  | .double d s0 => Sys2Proof.Machine.execDouble d s0 s
  | .halve d s0 => Sys2Proof.Machine.execHalve d s0 s
  | .addi d imm => Sys2Proof.Machine.execAddi d imm s
  | .subi d imm => Sys2Proof.Machine.execSubi d imm s
  | .muli d imm => Sys2Proof.Machine.execMuli d imm s
  | .divi d imm => Sys2Proof.Machine.execDivi d imm s
  | .remi d imm => Sys2Proof.Machine.execRemi d imm s
  | .shli d imm => Sys2Proof.Machine.execShli d imm s
  | .shri d imm => Sys2Proof.Machine.execShri d imm s
  | .move d s0 => Sys2Proof.Machine.execMove d s0 s
  | .swap d s0 => Sys2Proof.Machine.execSwap d s0 s
  | .swapRm d s0 => Sys2Proof.Machine.execSwapRm d s0 s
  | .swapMm d s0 => Sys2Proof.Machine.execSwapMm d s0 s
  | .swapRi d imm => Sys2Proof.Machine.execSwapRi d imm s
  | .swapMi d imm => Sys2Proof.Machine.execSwapMi d imm s
  | .set d imm => Sys2Proof.Machine.execSet d imm s
  | .load d s0 => Sys2Proof.Machine.execLoad d s0 s
  | .loadI d imm => Sys2Proof.Machine.execLoadI d imm s
  | .store d s0 => Sys2Proof.Machine.execStore d s0 s
  | .storeM d s0 => Sys2Proof.Machine.execStoreM d s0 s
  | .storeIa d imm => Sys2Proof.Machine.execStoreIa d imm s
  | .storeIv d imm => Sys2Proof.Machine.execStoreIv d imm s
  | .push s0 => Sys2Proof.Machine.execPush s0 s
  | .pushI imm => Sys2Proof.Machine.execPushI imm s
  | .pop d => Sys2Proof.Machine.execPop d s
  | .peek d => Sys2Proof.Machine.execPeek d s
  | .eq s0 s1 => Sys2Proof.Machine.execEq s0 s1 s
  | .eqAnd s0 s1 => Sys2Proof.Machine.execEqAnd s0 s1 s
  | .eqOr s0 s1 => Sys2Proof.Machine.execEqOr s0 s1 s
  | .eqXor s0 s1 => Sys2Proof.Machine.execEqXor s0 s1 s
  | .neq s0 s1 => Sys2Proof.Machine.execNeq s0 s1 s
  | .neqAnd s0 s1 => Sys2Proof.Machine.execNeqAnd s0 s1 s
  | .neqOr s0 s1 => Sys2Proof.Machine.execNeqOr s0 s1 s
  | .neqXor s0 s1 => Sys2Proof.Machine.execNeqXor s0 s1 s
  | .lt s0 s1 => Sys2Proof.Machine.execLt s0 s1 s
  | .ltAnd s0 s1 => Sys2Proof.Machine.execLtAnd s0 s1 s
  | .ltOr s0 s1 => Sys2Proof.Machine.execLtOr s0 s1 s
  | .ltXor s0 s1 => Sys2Proof.Machine.execLtXor s0 s1 s
  | .gt s0 s1 => Sys2Proof.Machine.execGt s0 s1 s
  | .gtAnd s0 s1 => Sys2Proof.Machine.execGtAnd s0 s1 s
  | .gtOr s0 s1 => Sys2Proof.Machine.execGtOr s0 s1 s
  | .gtXor s0 s1 => Sys2Proof.Machine.execGtXor s0 s1 s
  | .le s0 s1 => Sys2Proof.Machine.execLe s0 s1 s
  | .leAnd s0 s1 => Sys2Proof.Machine.execLeAnd s0 s1 s
  | .leOr s0 s1 => Sys2Proof.Machine.execLeOr s0 s1 s
  | .leXor s0 s1 => Sys2Proof.Machine.execLeXor s0 s1 s
  | .ge s0 s1 => Sys2Proof.Machine.execGe s0 s1 s
  | .geAnd s0 s1 => Sys2Proof.Machine.execGeAnd s0 s1 s
  | .geOr s0 s1 => Sys2Proof.Machine.execGeOr s0 s1 s
  | .geXor s0 s1 => Sys2Proof.Machine.execGeXor s0 s1 s
  | .bI imm => Sys2Proof.Machine.execBI imm s
  | .callI imm => Sys2Proof.Machine.execCallI imm s
  | .bR s0 => Sys2Proof.Machine.execBR s0 s
  | .callR s0 => Sys2Proof.Machine.execCallR s0 s
  | .btI imm => Sys2Proof.Machine.execBtI imm s
  | .calltI imm => Sys2Proof.Machine.execCalltI imm s
  | .btR s0 => Sys2Proof.Machine.execBtR s0 s
  | .calltR s0 => Sys2Proof.Machine.execCalltR s0 s
  | .bfI imm => Sys2Proof.Machine.execBfI imm s
  | .callfI imm => Sys2Proof.Machine.execCallfI imm s
  | .bfR s0 => Sys2Proof.Machine.execBfR s0 s
  | .callfR s0 => Sys2Proof.Machine.execCallfR s0 s
  | .iteT s0 s1 => Sys2Proof.Machine.execIteT s0 s1 s
  | .iteF s0 s1 => Sys2Proof.Machine.execIteF s0 s1 s
  | .itecallT s0 s1 => Sys2Proof.Machine.execItecallT s0 s1 s
  | .itecallF s0 s1 => Sys2Proof.Machine.execItecallF s0 s1 s
  | .ret => Sys2Proof.Machine.execRet s
  | .syscallTerminate => Sys2Proof.Machine.execSyscallTerminate s
  | .syscallPanic imm => Sys2Proof.Machine.execSyscallPanic imm s
  | .syscallPutc s0 s1 => Sys2Proof.Machine.execSyscallPutc s0 s1 s

end Sys2Proof.Machine
end

