-- ==== Sys2Proof/Machine/Sequencer.lean ====
section
/-! DEFINITION. The sequencer (46_sequencer.md): fetch, decode, dispatch, advance. -/

namespace Sys2Proof.Machine

/-- The Running state (46_sequencer.md R300): not halted, no error latched. No step is enabled in any other (R301, R306). -/
def State.running (s : State) : Bool :=
  !s.halted && s.error.isNone

/-- A step begins: `advance_pc` is true (46_sequencer.md R301), and an image may no longer be loaded (R309; log 8). -/
def State.beginStep (s : State) : State :=
  { s with advancePc := true, started := true }

/-- Fetch: the cell at `ip` (46_sequencer.md R302). -/
def fetch (s : State) : Res Cell32 :=
  codeRead s.ip s

/-- The error dispatch raises for an encoding without a handler (30_encoding.md R116; 60_exceptions.md R377, R379, R380). -/
def undefinedError : Undefined → Error
  | .noUnit g => .indexOutOfRange .group g.toNat
  | .arithmetic op => .notImplemented op
  | .move op => .invalidMoveOperation op
  | .compare op => .invalidCompareOperation op
  | .jump op => .illegalJumpOperation op
  | .misc op => .invalidMiscOperation op
  | .systemCommand sel _ _ => .invalidSystemCommand sel

/-- Advance (46_sequencer.md R305): `ip` plus 1 modulo 2^16 unless suppressed, and the suppression flag reset. The raw slot
write is `ip`'s own: index 8 is never write-protected. -/
def State.advance (s : State) : State :=
  if s.advancePc then s.setReg ipIdx s.nextAddress else { s with advancePc := true }

/-- The end of a step after dispatch: an error skips the advance (46_sequencer.md R301; 60_exceptions.md R372). -/
def State.finishStep (s : State) : State :=
  if s.error.isSome then s else s.advance

/-- Dispatch of an encoding without an instruction of its own: its error, or, for a system-call selector, what the system-call
table holds (30_encoding.md R116; 44_misc_syscall.md R270). -/
def dispatchUndefined (u : Undefined) (s : State) : Res Unit :=
  match u with
  | .systemCommand selector s0 s1 => systemCall selector s0 s1 s
  | _ => .raised (undefinedError u) s

/-- Dispatch of a decoded cell in a state whose step has begun (46_sequencer.md R304). -/
def dispatchDecoded (dec : Decoded) (s : State) : Host.Outcome State Fault Refusal :=
  match (match dec with
    | .instr i => exec i s
    | .undefined u => (dispatchUndefined u s).outcome) with
  | .next t => .next t.finishStep
  | .fault why => .fault why
  | .refused why => .refused why

/-- One step of a running core (46_sequencer.md R301). -/
def runStep (s : State) : Host.Outcome State Fault Refusal :=
  match fetch s.beginStep with
  | .done w t => dispatchDecoded (decode w) t
  | .raised e t => .next (t.takeError e)
  | .hung why => .fault why

/-- A cell put where the next instruction is fetched: the cell at `ip`. -/
def State.putFetchCell (w : Cell32) (s : State) : State :=
  s.setMem .code (s.code.writeCell s.ip.toNat w)

end Sys2Proof.Machine
end

