-- ==== Sys2Proof/Machine/Step.lean ====
section
/-! DEFINITION. The step of the machine (46_sequencer.md R301, R306), and the placing of one instruction for the next
fetch. -/

namespace Sys2Proof.Machine

/-- One step: enabled in the Running state; a halted core does nothing, so its state stays (46_sequencer.md R306; log 7). -/
def step (s : State) : Host.Outcome State Fault Refusal :=
  if s.running then runStep s else .next s

/-- `s` with the instruction of the low `nbits` bits of `w`, every higher bit 0, in the code cell that `step` fetches next:
`code[ip]` (46_sequencer.md R302; log 16). -/
def State.withFetchWord (s : State) (nbits w : Nat) : State :=
  s.putFetchCell (BitVec.ofNat 32 (w % 2 ^ nbits))

end Sys2Proof.Machine
end

