-- ==== Sys2Proof/Machine/Units.lean ====
section
/-! DEFINITION. The functional units (47_functional_units.md): what each unit computes (R333 to R339), and the transitions
of a unit as an agent (R323 to R328). The storage of RF and of the MEM units is the register file and the memories of
`State` (log 10). -/

namespace Sys2Proof.Machine

/-- The state of unit `u`. -/
def Units.get (us : Units) : UnitId → UnitState
  | .rf => us.rf
  | .dec => us.dec
  | .alu => us.alu
  | .cmp => us.cmp
  | .bru => us.bru
  | .memCode => us.memCode
  | .memData => us.memData
  | .memStack => us.memStack
  | .memCall => us.memCall
  | .sys => us.sys

/-- The state of unit `u` replaced. -/
def Units.set (u : UnitId) (x : UnitState) (us : Units) : Units :=
  match u with
  | .rf => { us with rf := x }
  | .dec => { us with dec := x }
  | .alu => { us with alu := x }
  | .cmp => { us with cmp := x }
  | .bru => { us with bru := x }
  | .memCode => { us with memCode := x }
  | .memData => { us with memData := x }
  | .memStack => { us with memStack := x }
  | .memCall => { us with memCall := x }
  | .sys => { us with sys := x }

/-- The unit `u` of a core. -/
def State.unit (s : State) (u : UnitId) : UnitState :=
  s.units.get u

/-- The unit `u` of a core replaced. -/
def State.setUnit (u : UnitId) (x : UnitState) (s : State) : State :=
  { s with units := s.units.set u x }

/-- `k`, the number of operands every operation of the unit takes (47_functional_units.md R325, R333 to R339). -/
def unitArity : UnitId → Nat
  | .rf => 2
  | .dec => 1
  | .alu => 2
  | .cmp => 3
  | .bru => 4
  | .memCode => 2
  | .memData => 2
  | .memStack => 2
  | .memCall => 2
  | .sys => 4

/-- The operand received `i`-th, counting from 0. Ports carry 32 bits here and a unit reads the low bits of its port's
width (log 11). -/
def operandAt (args : List (BitVec 32)) (i : Nat) : BitVec 32 :=
  args.getD i 0#32

/-- A Word on an operand port. -/
def operandWord (args : List (BitVec 32)) (i : Nat) : Word :=
  (operandAt args i).setWidth 16

/-- The two-valued operation code of RF, DEC and MEM: 1 bit (47_functional_units.md R333, R334, R338). -/
def codeBit (code : BitVec 8) : Bool :=
  code.getLsbD 0

/-- The five-bit operation code of ALU, CMP and BRU (47_functional_units.md R335 to R337). -/
def codeOp (code : BitVec 8) : BitVec 5 :=
  code.setWidth 5

/-- RF (47_functional_units.md R333). -/
def rfCompute (code : BitVec 8) (args : List (BitVec 32)) (s : State) : Res UnitResult :=
  if codeBit code then
    (writeReg ((operandAt args 0).setWidth 8) (operandWord args 1) s).andThen fun _ t => .done (.word (operandWord args 1)) t
  else .done (.word (s.reg ((operandAt args 0).setWidth 8))) s

/-- A decoded record as the 32 bits of an operand: `group`, `op`, `data[0]`, `data[1]`, `data[2]` from the high end. The
packing is DESIGN CHOICE (log 13). -/
def unpackRecord (w : BitVec 32) : DecodedInstruction :=
  { group := w.extractLsb' 29 3, op := w.extractLsb' 24 5, data0 := w.extractLsb' 16 8, data1 := w.extractLsb' 8 8,
    data2 := w.extractLsb' 0 8 }

/-- DEC (47_functional_units.md R334). -/
def decCompute (code : BitVec 8) (args : List (BitVec 32)) (s : State) : Res UnitResult :=
  if codeBit code then .done (.cell (encodeFields (unpackRecord (operandAt args 0)))) s
  else .done (.record (decodeFields (operandAt args 0))) s

/-- The function of an arithmetic op code; codes 15 to 21 compute the functions of codes 0 to 6
(47_functional_units.md R335). -/
def aluFn (op : BitVec 5) : Option ArithFn :=
  match op.toNat with
  | 0 => some addFn
  | 1 => some subFn
  | 2 => some mulFn
  | 3 => some divFn
  | 4 => some remFn
  | 5 => some shlFn
  | 6 => some shrFn
  | 7 => some andFn
  | 8 => some orFn
  | 9 => some notFn
  | 10 => some xorFn
  | 11 => some incFn
  | 12 => some decFn
  | 13 => some doubleFn
  | 14 => some halveFn
  | 15 => some addFn
  | 16 => some subFn
  | 17 => some mulFn
  | 18 => some divFn
  | 19 => some remFn
  | 20 => some shlFn
  | 21 => some shrFn
  | _ => none

/-- ALU (47_functional_units.md R335). -/
def aluCompute (code : BitVec 8) (args : List (BitVec 32)) (s : State) : Res UnitResult :=
  match aluFn (codeOp code) with
  | none => .raised (.notImplemented (codeOp code)) s
  | some f =>
    match f (operandWord args 0) (operandWord args 1) with
    | none => .raised .divideByZero s
    | some r => .done (.word r) s

/-- The predicate number of a compare op code: `op / 4` (30_encoding.md R112). -/
def cmpPredicate (op : BitVec 5) : Option (Word → Word → Bool) :=
  match op.toNat / 4 with
  | 0 => some predEq
  | 1 => some predNeq
  | 2 => some predLt
  | 3 => some predGt
  | 4 => some predLe
  | 5 => some predGe
  | _ => none

/-- The combinator number of a compare op code: `op mod 4` (30_encoding.md R112). -/
def cmpCombinator (op : BitVec 5) : Bool → Bool → Bool :=
  match op.toNat % 4 with
  | 0 => combineOverwrite
  | 1 => combineAnd
  | 2 => combineOr
  | _ => combineXor

/-- CMP (47_functional_units.md R336). -/
def cmpCompute (code : BitVec 8) (args : List (BitVec 32)) (s : State) : Res UnitResult :=
  match cmpPredicate (codeOp code) with
  | none => .raised (.invalidCompareOperation (codeOp code)) s
  | some p =>
    .done (.word (comparePred p (cmpCombinator (codeOp code)) (operandWord args 0) (operandWord args 1) (operandWord args 2))) s

/-- The `{ret, link, target}` of a jump op code (47_functional_units.md R337). -/
def bruResult (op : BitVec 5) (untakenCallPushes : Bool) (ip pred t f : Word) : Option UnitResult :=
  let taken := boolOf pred
  let next := ip + 1#16
  match op.toNat with
  | 0 => some (.branch false false t)
  | 1 => some (.branch false true t)
  | 2 => some (.branch false false t)
  | 3 => some (.branch false true t)
  | 4 => some (.branch false false (if taken then t else next))
  | 5 => some (.branch false (taken || untakenCallPushes) (if taken then t else next))
  | 6 => some (.branch false false (if taken then t else next))
  | 7 => some (.branch false (taken || untakenCallPushes) (if taken then t else next))
  | 8 => some (.branch false false (if !taken then t else next))
  | 9 => some (.branch false (!taken || untakenCallPushes) (if !taken then t else next))
  | 10 => some (.branch false false (if !taken then t else next))
  | 11 => some (.branch false (!taken || untakenCallPushes) (if !taken then t else next))
  | 12 => some (.branch false false (if taken then t else f))
  | 13 => some (.branch false false (if !taken then t else f))
  | 14 => some (.branch false true (if taken then t else f))
  | 15 => some (.branch false true (if !taken then t else f))
  | 16 => some (.branch true false 0#16)
  | _ => none

/-- BRU (47_functional_units.md R337). -/
def bruCompute (code : BitVec 8) (args : List (BitVec 32)) (s : State) : Res UnitResult :=
  match bruResult (codeOp code) s.config.untakenCallPushes (operandWord args 0) (operandWord args 1) (operandWord args 2)
      (operandWord args 3) with
  | none => .raised (.illegalJumpOperation (codeOp code)) s
  | some r => .done r s

/-- MEM.code (47_functional_units.md R338); when its Store is accepted: `unitAccepts`. -/
def memCodeCompute (code : BitVec 8) (args : List (BitVec 32)) (s : State) : Res UnitResult :=
  if s.config.codeSize ≤ (operandWord args 0).toNat then .raised (.addressOutOfRange .code (operandWord args 0)) s
  else if codeBit code then
    .done (.cell (operandAt args 1)) (s.setMem .code (s.code.writeCell (operandWord args 0).toNat (operandAt args 1)))
  else .done (.cell (s.code.readCell (operandWord args 0).toNat)) s

/-- MEM.data (47_functional_units.md R338): `MemRead` and `MemWrite`, router and IO multiplexer inside. -/
def memDataCompute (code : BitVec 8) (args : List (BitVec 32)) (s : State) : Res UnitResult :=
  if codeBit code then
    (memWrite (operandWord args 0) (operandWord args 1) s).andThen fun _ t => .done (.word (operandWord args 1)) t
  else (memRead (operandWord args 0) s).andThen fun v t => .done (.word v) t

/-- MEM.stack and MEM.call (47_functional_units.md R338): the segment of a stack; the pointer is not here. -/
def memStackCompute (k : StackId) (code : BitVec 8) (args : List (BitVec 32)) (s : State) : Res UnitResult :=
  if s.size (stackSegment k) ≤ (operandWord args 0).toNat then
    .raised (.addressOutOfRange (stackSegment k) (operandWord args 0)) s
  else if codeBit code then
    .done (.word (operandWord args 1)) (s.setMem (stackSegment k)
      ((s.mem (stackSegment k)).writeWord (operandWord args 0).toNat (operandWord args 1)))
  else .done (.word ((s.mem (stackSegment k)).readWord (operandWord args 0).toNat)) s

/-- SYS (47_functional_units.md R339); a code 3 to 255 through the system-call table (44_misc_syscall.md R270). -/
def sysCompute (code : BitVec 8) (args : List (BitVec 32)) (s : State) : Res UnitResult :=
  match systemCallTable s.config code with
  | .terminate => .done (.sys true false 0#32) s
  | .panic => .raised (.panic (operandWord args 0)) s
  | .putc =>
    .done (.sys false true (putcCode ((operandAt args 3).getLsbD 0) (operandWord args 1) (operandWord args 2))) s
  | .platform =>
    match Config.systemCallDraw code (operandWord args 0) (operandWord args 1) (operandWord args 2)
        ((operandAt args 3).getLsbD 0) with
    | .result halt emit c => .done (.sys halt emit c) s
    | .panic payload => .raised (.panic payload) s
  | .invalid => .raised (.invalidSystemCommand code) s

/-- What unit `u` computes from an operation code and all its operands; its storage is updated here
(47_functional_units.md R325). -/
def unitCompute (u : UnitId) (code : BitVec 8) (args : List (BitVec 32)) (s : State) : Res UnitResult :=
  match u with
  | .rf => rfCompute code args s
  | .dec => decCompute code args s
  | .alu => aluCompute code args s
  | .cmp => cmpCompute code args s
  | .bru => bruCompute code args s
  | .memCode => memCodeCompute code args s
  | .memData => memDataCompute code args s
  | .memStack => memStackCompute .dataStack code args s
  | .memCall => memStackCompute .callStack code args s
  | .sys => sysCompute code args s

/-- A value offered to a unit on one of its ports, or the consumer accepting on `result` or `error`
(47_functional_units.md R320, R322). `operand i v` is `v` offered on `operand[i]`, counting from 1. -/
inductive UnitEvent where
  | start
  | stop
  | operation (code : BitVec 8)
  | operand (i : Nat) (v : BitVec 32)
  | takeResult
  | takeError
  deriving DecidableEq, Repr

/-- A reply on the control port (47_functional_units.md R320, R332): an error here is reported to the integrator and never
latched. -/
inductive ControlReply where
  | ok
  | failed (e : Error)
  deriving DecidableEq, Repr

/-- What an event does: the transfer happens, with the reply and the outcome it delivers, or the offer waits (R322), or the
unit's operation never completes. -/
inductive Reaction where
  | happened (reply : Option ControlReply) (outcome : Option UnitOutcome) (s : State)
  | waits
  | blocked (why : Fault)
  deriving DecidableEq, Repr

/-- `Start` (47_functional_units.md R323); while a `Stop` is pending it waits (R324). -/
def unitStart (u : UnitId) (s : State) : Reaction :=
  match (s.unit u).phase with
  | .idle => .happened (some .ok) none (s.setUnit u .awaiting)
  | _ => if (s.unit u).stopping then .waits else .happened (some (.failed .unitAlreadyRunning)) none s

/-- `Stop` (47_functional_units.md R324): discards an incomplete operation; an offered outcome is kept, and the reply is due
when it has been taken. -/
def unitStop (u : UnitId) (s : State) : Reaction :=
  match (s.unit u).phase with
  | .idle => .happened (some (.failed .unitNotRunning)) none s
  | .emit _ =>
    if (s.unit u).stopping then .waits else .happened none none (s.setUnit u { s.unit u with stopping := true })
  | _ => .happened (some .ok) none (s.setUnit u .created)

/-- The transition into `Emit`: the unit computes and offers its one outcome (47_functional_units.md R325, R326). -/
def unitComplete (u : UnitId) (code : BitVec 8) (args : List (BitVec 32)) (s : State) : Reaction :=
  match unitCompute u code args s with
  | .done r t => .happened none none (t.setUnit u { t.unit u with phase := .emit (.result r) })
  | .raised e t => .happened none none (t.setUnit u { t.unit u with phase := .emit (.error e) })
  | .hung why => .blocked why

/-- Whether unit `u` goes on with operation `code`: "`MEM.code` accepts Store only for the image load"
(47_functional_units.md R338), which is legal only until the first step (70_reset_and_hazards.md R415). That `started` decides
it, and that any other Store waits, is DEDUCED (log 25). -/
def unitAccepts (u : UnitId) (code : BitVec 8) (s : State) : Bool :=
  match u with
  | .memCode => !codeBit code || !s.started
  | _ => true

/-- An operation code offered: accepted in `AwaitOp` only (47_functional_units.md R325, R327, R328, R338). -/
def unitOperation (u : UnitId) (code : BitVec 8) (s : State) : Reaction :=
  match (s.unit u).phase with
  | .awaitOp =>
    if unitAccepts u code s then .happened none none (s.setUnit u { s.unit u with phase := .awaitOperand code [] })
    else .waits
  | _ => .waits

/-- An operand offered on `operand[i]`: accepted strictly in order; the last one completes the operation
(47_functional_units.md R325). -/
def unitOperand (u : UnitId) (i : Nat) (v : BitVec 32) (s : State) : Reaction :=
  match (s.unit u).phase with
  | .awaitOperand code got =>
    if i = got.length + 1 ∧ unitAccepts u code s = true then
      if i = unitArity u then unitComplete u code (got ++ [v]) s
      else .happened none none (s.setUnit u { s.unit u with phase := .awaitOperand code (got ++ [v]) })
    else .waits
  | _ => .waits

/-- The outcome `o` has been taken: back to `AwaitOp`, or idle with the pending `Stop` answered
(47_functional_units.md R324, R325). -/
def unitTaken (u : UnitId) (o : UnitOutcome) (s : State) : Reaction :=
  if (s.unit u).stopping then .happened (some .ok) (some o) (s.setUnit u .created)
  else .happened none (some o) (s.setUnit u .awaiting)

/-- The consumer accepts on `result` (47_functional_units.md R325, R326). -/
def unitTakeResult (u : UnitId) (s : State) : Reaction :=
  match (s.unit u).phase with
  | .emit (.result r) => unitTaken u (.result r) s
  | _ => .waits

/-- The consumer accepts on `error` (47_functional_units.md R325, R326). -/
def unitTakeError (u : UnitId) (s : State) : Reaction :=
  match (s.unit u).phase with
  | .emit (.error e) => unitTaken u (.error e) s
  | _ => .waits

/-- One event on one unit. Any event of any unit may be the next (47_functional_units.md R330; log 18). -/
def unitEvent (u : UnitId) (ev : UnitEvent) (s : State) : Reaction :=
  match ev with
  | .start => unitStart u s
  | .stop => unitStop u s
  | .operation code => unitOperation u code s
  | .operand i v => unitOperand u i v s
  | .takeResult => unitTakeResult u s
  | .takeError => unitTakeError u s

/-- Every unit of the catalogue. -/
def allUnits : List UnitId :=
  [.rf, .dec, .alu, .cmp, .bru, .memCode, .memData, .memStack, .memCall, .sys]

/-- One control event sent to each unit of a list in turn, with the replies; one that waits is left
(47_functional_units.md R353). -/
def controlUnits (ev : UnitEvent) : List UnitId → State → State × List (Option ControlReply)
  | [], s => (s, [])
  | u :: rest, s =>
    match unitEvent u ev s with
    | .happened reply _ t => ((controlUnits ev rest t).1, reply :: (controlUnits ev rest t).2)
    | _ => ((controlUnits ev rest s).1, none :: (controlUnits ev rest s).2)

/-- `Start` to every unit that is idle: after reset that is every unit, and none is ever sent to a running one
(47_functional_units.md R353). -/
def State.startUnits (s : State) : State :=
  (controlUnits .start (allUnits.filter fun u => !(s.unit u).running) s).1

/-- `Stop` to every unit that is running, once the core has halted: none is ever sent to an idle one
(47_functional_units.md R353). -/
def State.stopUnits (s : State) : State :=
  (controlUnits .stop (allUnits.filter fun u => (s.unit u).running) s).1

end Sys2Proof.Machine
end

