-- ==== Sys2Proof/Machine/Compose.lean ====
section
/-! DEFINITION. The reference composition (47_functional_units.md R350, R351, R353): the integrator executes one
instruction as complete operations of the functional units. The architectural meaning of a program is `step`; R352
requires this composition to leave the same state. -/

namespace Sys2Proof.Machine

/-- One value offered to a unit; an offer that is not accepted waits (47_functional_units.md R322, R328; log 21). -/
def offer (u : UnitId) (ev : UnitEvent) (s : State) : Res Unit :=
  match unitEvent u ev s with
  | .happened _ _ t => .done () t
  | .waits => .hung (.unitNotAccepting u)
  | .blocked why => .hung why

/-- The operands offered in order on `operand[i]`, `operand[i+1]`, … (47_functional_units.md R325, R354). -/
def offerOperands (u : UnitId) : Nat → List (BitVec 32) → State → Res Unit
  | _, [], s => .done () s
  | i, v :: rest, s => (offer u (.operand i v) s).andThen fun _ t => offerOperands u (i + 1) rest t

/-- The outcome taken from whichever of `result` and `error` carries it (47_functional_units.md R326). -/
def collect (u : UnitId) (s : State) : Res UnitResult :=
  match unitEvent u .takeResult s with
  | .happened _ (some (.result r)) t => .done r t
  | _ =>
    match unitEvent u .takeError s with
    | .happened _ (some (.error e)) t => .raised e t
    | _ => .hung (.unitNotAccepting u)

/-- One complete operation: the code, the operands in order, the outcome (47_functional_units.md R350, R354). -/
def operate (u : UnitId) (code : BitVec 8) (args : List (BitVec 32)) (s : State) : Res UnitResult :=
  (offer u (.operation code) s).andThen fun _ t =>
    (offerOperands u 1 args t).andThen fun _ t' => collect u t'

/-- The Word of a result. -/
def resultWord : UnitResult → Word
  | .word v => v
  | _ => 0#16

/-- The cell of a result. -/
def resultCell : UnitResult → Cell32
  | .cell w => w
  | _ => 0#32

/-- The record of a result. -/
def resultRecord : UnitResult → DecodedInstruction
  | .record r => r
  | _ => decodeFields 0#32

/-- `RF.Read(i)`. -/
def rfRead (i : RegIdx) (s : State) : Res Word :=
  (operate .rf 0#8 [i.setWidth 32, 0#32] s).andThen fun r t => .done (resultWord r) t

/-- `RF.Write(i, v)`. -/
def rfWrite (i : RegIdx) (v : Word) (s : State) : Res Unit :=
  (operate .rf 1#8 [i.setWidth 32, v.setWidth 32] s).andThen fun _ t => .done () t

/-- `MEM.code.Load(a)`. -/
def memCodeLoad (a : Word) (s : State) : Res Cell32 :=
  (operate .memCode 0#8 [a.setWidth 32, 0#32] s).andThen fun r t => .done (resultCell r) t

/-- `DEC.Decode(w)`. -/
def decDecode (w : Cell32) (s : State) : Res DecodedInstruction :=
  (operate .dec 0#8 [w] s).andThen fun r t => .done (resultRecord r) t

/-- `MEM.<u>.Load(a)` of a unit that holds Words. -/
def memLoad (u : UnitId) (a : Word) (s : State) : Res Word :=
  (operate u 0#8 [a.setWidth 32, 0#32] s).andThen fun r t => .done (resultWord r) t

/-- `MEM.<u>.Store(a, v)` of a unit that holds Words. -/
def memStore (u : UnitId) (a v : Word) (s : State) : Res Unit :=
  (operate u 1#8 [a.setWidth 32, v.setWidth 32] s).andThen fun _ t => .done () t

/-- Stage arithmetic (47_functional_units.md R350): op codes 15 to 21 take the immediate as `arg1`. Before the Write the integrator
itself compares `d` against 0 and 1 (R351), after ALU, so that `DivideByZero` comes first (40_arithmetic.md R131). -/
def composeArithmetic (r : DecodedInstruction) (s : State) : Res Unit :=
  (rfRead r.data1 s).andThen fun a s1 =>
    (if 15 ≤ r.op.toNat ∧ r.op.toNat ≤ 21 then .done r.immediate s1 else rfRead r.data2 s1).andThen fun b s2 =>
      (operate .alu (r.op.setWidth 8) [a.setWidth 32, b.setWidth 32] s2).andThen fun v s3 =>
        (checkWritable r.data0 s3).andThen fun _ s4 => rfWrite r.data0 (resultWord v) s4

/-- `x[d] <- x[s0]` by units (41_move.md R170). -/
def composeMove (d s0 : RegIdx) (s : State) : Res Unit :=
  (checkWritable d s).andThen fun _ s1 => (rfRead s0 s1).andThen fun v s2 => rfWrite d v s2

/-- The register swap by units (41_move.md R171). -/
def composeSwap (d s0 : RegIdx) (s : State) : Res Unit :=
  (checkWritable d s).andThen fun _ s1 =>
    (checkWritable s0 s1).andThen fun _ s2 =>
      (rfRead d s2).andThen fun a s3 =>
        (rfRead s0 s3).andThen fun b s4 => (rfWrite d b s4).andThen fun _ s5 => rfWrite s0 a s5

/-- An address operand: a register's value, read from RF, or the immediate. -/
def composeAddress (o : Sum RegIdx Word) (s : State) : Res Word :=
  match o with
  | .inl i => rfRead i s
  | .inr imm => .done imm s

/-- A register swapped with a cell by units (41_move.md R172, R174). -/
def composeSwapRegisterCell (d : RegIdx) (o : Sum RegIdx Word) (s : State) : Res Unit :=
  (checkWritable d s).andThen fun _ s1 =>
    (rfRead d s1).andThen fun a s2 =>
      (composeAddress o s2).andThen fun addr s3 =>
        (memLoad .memData addr s3).andThen fun m s4 =>
          (memStore .memData addr a s4).andThen fun _ s5 => rfWrite d m s5

/-- Two cells swapped by units (41_move.md R173, R175); the probes are the integrator's own (47_functional_units.md R351). -/
def composeSwapCells (d : RegIdx) (o : Sum RegIdx Word) (s : State) : Res Unit :=
  (rfRead d s).andThen fun a1 s1 =>
    (composeAddress o s1).andThen fun a2 s2 =>
      (memProbe a1 s2).andThen fun _ s3 =>
        (memProbe a2 s3).andThen fun _ s4 =>
          (memLoad .memData a1 s4).andThen fun m1 s5 =>
            (memLoad .memData a2 s5).andThen fun m2 s6 =>
              (memStore .memData a1 m2 s6).andThen fun _ s7 => memStore .memData a2 m1 s7

/-- A load by units (41_move.md R177, R178). -/
def composeLoad (d : RegIdx) (o : Sum RegIdx Word) (s : State) : Res Unit :=
  (checkWritable d s).andThen fun _ s1 =>
    (composeAddress o s1).andThen fun a s2 => (memLoad .memData a s2).andThen fun v s3 => rfWrite d v s3

/-- A store of a register or of the immediate by units (41_move.md R179, R182). -/
def composeStore (d : RegIdx) (o : Sum RegIdx Word) (s : State) : Res Unit :=
  (rfRead d s).andThen fun a s1 => (composeAddress o s1).andThen fun v s2 => memStore .memData a v s2

/-- A memory-to-memory copy by units (41_move.md R180, R181). -/
def composeCopy (d : RegIdx) (o : Sum RegIdx Word) (s : State) : Res Unit :=
  (rfRead d s).andThen fun a s1 =>
    (composeAddress o s1).andThen fun b s2 =>
      (memProbe a s2).andThen fun _ s3 => (memLoad .memData b s3).andThen fun v s4 => memStore .memData a v s4

/-- A push by units: the pointer arithmetic is the integrator's (20_memory.md R75; 47_functional_units.md R338, R350). -/
def composePush (u : UnitId) (pointer : RegIdx) (v : Word) (s : State) : Res Unit :=
  (rfRead pointer s).andThen fun p s1 =>
    (memStore u (p + 1#16) v s1).andThen fun _ s2 => rfWrite pointer (p + 1#16) s2

/-- A pop by units (20_memory.md R76). -/
def composePop (u : UnitId) (pointer : RegIdx) (s : State) : Res Word :=
  (rfRead pointer s).andThen fun p s1 =>
    (memLoad u p s1).andThen fun v s2 => (rfWrite pointer (p - 1#16) s2).andThen fun _ s3 => .done v s3

/-- Stage move (47_functional_units.md R350): per opcode, in the order of its rule in 41_move.md. -/
def composeMoveGroup (r : DecodedInstruction) (s : State) : Res Unit :=
  match r.op.toNat with
  | 0 => composeMove r.data0 r.data1 s
  | 1 => composeSwap r.data0 r.data1 s
  | 2 => composeSwapRegisterCell r.data0 (.inl r.data1) s
  | 3 => composeSwapCells r.data0 (.inl r.data1) s
  | 4 => composeSwapRegisterCell r.data0 (.inr r.immediate) s
  | 5 => composeSwapCells r.data0 (.inr r.immediate) s
  | 6 => (checkWritable r.data0 s).andThen fun _ s1 => rfWrite r.data0 r.immediate s1
  | 7 => composeLoad r.data0 (.inl r.data1) s
  | 8 => composeLoad r.data0 (.inr r.immediate) s
  | 9 => composeStore r.data0 (.inl r.data1) s
  | 10 => composeCopy r.data0 (.inl r.data1) s
  | 11 => composeCopy r.data0 (.inr r.immediate) s
  | 12 => composeStore r.data0 (.inr r.immediate) s
  | 13 => (rfRead r.data1 s).andThen fun v s1 => composePush .memStack spIdx v s1
  | 14 => composePush .memStack spIdx r.immediate s
  | 15 =>
    (checkWritable r.data0 s).andThen fun _ s1 =>
      (composePop .memStack spIdx s1).andThen fun v s2 => rfWrite r.data0 v s2
  | 16 =>
    (checkWritable r.data0 s).andThen fun _ s1 =>
      (rfRead spIdx s1).andThen fun p s2 => (memLoad .memStack p s2).andThen fun v s3 => rfWrite r.data0 v s3
  | _ => .raised (.invalidMoveOperation r.op) s

/-- Stage compare (47_functional_units.md R350). -/
def composeCompare (r : DecodedInstruction) (s : State) : Res Unit :=
  (rfRead predIdx s).andThen fun pred s1 =>
    (rfRead r.data1 s1).andThen fun a s2 =>
      (rfRead r.data2 s2).andThen fun b s3 =>
        (operate .cmp (r.op.setWidth 8) [pred.setWidth 32, a.setWidth 32, b.setWidth 32] s3).andThen fun v s4 =>
          rfWrite predIdx (resultWord v) s4

/-- The jump op codes whose target is the immediate (30_encoding.md R114). -/
def jumpImmediate (op : BitVec 5) : Bool :=
  [0, 1, 4, 5, 8, 9].contains op.toNat

/-- What the integrator does with BRU's result (47_functional_units.md R337, R350). -/
def composeBranch (ip : Word) (res : UnitResult) (s : State) : Res Unit :=
  match res with
  | .branch ret link target =>
    if ret then (composePop .memCall cspIdx s).andThen fun v t => rfWrite ipIdx v t
    else if link then (composePush .memCall cspIdx (ip + 1#16) s).andThen fun _ t => rfWrite ipIdx target t
    else rfWrite ipIdx target s
  | _ => .done () s

/-- Stage jump (47_functional_units.md R350). -/
def composeJump (ip : Word) (r : DecodedInstruction) (s : State) : Res Unit :=
  (rfRead predIdx s).andThen fun pred s1 =>
    (rfRead r.data1 s1).andThen fun a s2 =>
      (rfRead r.data2 s2).andThen fun b s3 =>
        (operate .bru (r.op.setWidth 8)
          [ip.setWidth 32, pred.setWidth 32, (if jumpImmediate r.op then r.immediate else a).setWidth 32, b.setWidth 32]
          s3).andThen fun res s4 => composeBranch ip res s4

/-- What the integrator does with SYS's result: halt when `halt = 1`, emit when `emit = 1` (47_functional_units.md R339). -/
def composeSystem (res : UnitResult) (s : State) : Res Unit :=
  match res with
  | .sys halt emit c => .done () (s.applyResult halt emit c)
  | _ => .done () s

/-- Stage misc (47_functional_units.md R350). -/
def composeMisc (r : DecodedInstruction) (s : State) : Res Unit :=
  if r.op.toNat ≠ 0 then .raised (.invalidMiscOperation r.op) s
  else
    (rfRead r.data1 s).andThen fun a s1 =>
      (rfRead r.data2 s1).andThen fun b s2 =>
        (operate .sys r.data0
          [r.immediate.setWidth 32, a.setWidth 32, b.setWidth 32, if r.data1 = r.data2 then 1#32 else 0#32]
          s2).andThen fun res s3 => composeSystem res s3

/-- Stage dispatch (47_functional_units.md R350). -/
def composeDispatch (ip : Word) (r : DecodedInstruction) (s : State) : Res Unit :=
  match r.group.toNat with
  | 0 => composeArithmetic r s
  | 1 => composeMoveGroup r s
  | 2 => composeCompare r s
  | 3 => composeJump ip r s
  | 4 => composeMisc r s
  | _ => .raised (.indexOutOfRange .group r.group.toNat) s

/-- Stage advance (47_functional_units.md R350): not for the jump group. -/
def composeAdvance (r : DecodedInstruction) (s : State) : Res Unit :=
  if r.group.toNat = 3 then .done () s
  else (rfRead ipIdx s).andThen fun ip s1 => rfWrite ipIdx (ip + 1#16) s1

/-- The stages fetch to advance of one instruction (47_functional_units.md R350). -/
def composeInstruction (s : State) : Res Unit :=
  (rfRead ipIdx s).andThen fun ip s1 =>
    (memCodeLoad ip s1).andThen fun w s2 =>
      (decDecode w s2).andThen fun r s3 =>
        (composeDispatch ip r s3).andThen fun _ s4 => composeAdvance r s4

/-- When `halted` has become true the integrator stops every unit (47_functional_units.md R351, R353). -/
def State.settleUnits (s : State) : State :=
  if s.halted then s.stopUnits else s

/-- One instruction of the composed core (47_functional_units.md R350 to R353). -/
def composedStep (s : State) : Host.Outcome State Fault Refusal :=
  if s.running then
    match composeInstruction s.beginStep with
    | .done _ t => .next t.settleUnits
    | .raised e t => .next (t.takeError e).settleUnits
    | .hung why => .fault why
  else .next s

end Sys2Proof.Machine
end

