-- ==== Sys2Proof/Machine/Image.lean ====
section
/-! DEFINITION. The load and dump image (70_reset_and_hazards.md R415, R416). -/

namespace Sys2Proof.Machine

/-- The memory whose bytes from offset `start` on are `bytes`, in canonical form. -/
def Memory.ofBytes (start : Nat) : List Byte → Memory
  | [] => []
  | b :: rest =>
    if b = Memory.unlisted then Memory.ofBytes (start + 1) rest else (start, b) :: Memory.ofBytes (start + 1) rest

/-- The first `n` bytes of a memory. -/
def Memory.toBytes (m : Memory) (n : Nat) : List Byte :=
  (List.range n).map m.readByte

/-- Bytes of one cell: 4 for the code segment, 2 for the others (70_reset_and_hazards.md R415). -/
def cellBytes : Segment → Nat
  | .code => 4
  | .data => 2
  | .stack => 2
  | .call => 2

/-- The number of bytes of a segment's part of the image (70_reset_and_hazards.md R415). -/
def State.partLength (s : State) (seg : Segment) : Nat :=
  cellBytes seg * s.size seg

/-- `L`, the length of the image; the microcode part is absent (70_reset_and_hazards.md R415). -/
def State.imageLength (s : State) : Nat :=
  s.partLength .code + s.partLength .data + s.partLength .stack + s.partLength .call

/-- Every cell of every segment from an image of the right length, and nothing else (70_reset_and_hazards.md R415). -/
def State.withImage (bytes : List Byte) (s : State) : State :=
  let afterCode := bytes.drop (s.partLength .code)
  let afterData := afterCode.drop (s.partLength .data)
  let afterStack := afterData.drop (s.partLength .stack)
  { s with
    code := Memory.ofBytes 0 (bytes.take (s.partLength .code))
    data := Memory.ofBytes 0 (afterCode.take (s.partLength .data))
    stack := Memory.ofBytes 0 (afterData.take (s.partLength .stack))
    call := Memory.ofBytes 0 (afterStack.take (s.partLength .call)) }

/-- `Dump()`: the same layout, code, data RAM, stack, call-stack (70_reset_and_hazards.md R416). -/
def State.dump (s : State) : List Byte :=
  s.code.toBytes (s.partLength .code) ++ s.data.toBytes (s.partLength .data) ++ s.stack.toBytes (s.partLength .stack)
    ++ s.call.toBytes (s.partLength .call)

end Sys2Proof.Machine
end

