-- ==== Sys2Proof/Machine/Platform.lean ====
section
/-! DEFINITION. What the platform around the block can do (46_sequencer.md R309): register devices, load and dump an image,
call the lifecycle hooks, bring the core up and read a halted one. None of it can be reached from an instruction. -/

namespace Sys2Proof.Machine

/-- Why a platform operation is refused, the core unchanged (93_implementation_defined.md, treatment `refuse`). -/
inductive PlatformRefusal where
  /-- A step has been taken since reset (46_sequencer.md R309; 70_reset_and_hazards.md R415). -/
  | coreStarted
  /-- An image whose length is not `L` (70_reset_and_hazards.md R415). -/
  | wrongLength
  /-- A device with `Begin > End` (45_io_registry.md R286). -/
  | badRange
  /-- A setup-time error of the taxonomy: `OverlappingDevice` (45_io_registry.md R288; 60_exceptions.md R371). -/
  | setupError (e : Error)
  /-- A lifecycle hook failed with the device's own error (45_io_registry.md R290, R291). -/
  | hookFailed (e : Nat)
  /-- The core is running (46_sequencer.md R309; 70_reset_and_hazards.md R416). -/
  | coreRunning
  /-- A built-in system call is never replaced (92_eei_decisions.md D25). -/
  | builtInSelector
  /-- The hook has been called since the last reset: it is called once (45_io_registry.md R291). -/
  | hookAlreadyCalled
  /-- `startup_all` has not succeeded since the last reset: the core does not start (45_io_registry.md R291). -/
  | notStartedUp
  deriving DecidableEq, Repr

/-- The result of a platform operation. -/
inductive PlatformResult (α : Type) where
  | ok (a : α)
  | refused (why : PlatformRefusal)
  deriving DecidableEq, Repr

/-- `register(dev)` (45_io_registry.md R286, R288), before the first step only (46_sequencer.md R309). That it is also accepted
after `startup_all` has succeeded, the hooks not being called again, is DESIGN CHOICE (log 27). -/
def State.register (dev : Device) (s : State) : PlatformResult State :=
  if s.started then .refused .coreStarted
  else if !dev.wellFormed then .refused .badRange
  else if s.config.devices.any (fun e => dev.overlaps e) then .refused (.setupError .overlappingDevice)
  else .ok { s with config := { s.config with devices := s.config.devices ++ [dev] } }

/-- Devices registered in order (70_reset_and_hazards.md R411 step 1), with the refusal that stopped it. After a failed
registration the spec says only that the list is unchanged and the platform is told (45_io_registry.md R288): that the rest is
not registered is DESIGN CHOICE (log 26). -/
def registerAll : List Device → State → State × Option PlatformRefusal
  | [], s => (s, none)
  | dev :: rest, s =>
    match s.register dev with
    | .ok t => registerAll rest t
    | .refused why => (s, some why)

/-- A system-call entry set at setup, before the first step; an earlier one for the selector is overwritten, a built-in never
(44_misc_syscall.md R270; 92_eei_decisions.md D25; 93_implementation_defined.md part 2). -/
def State.registerSystemCall (entry : SystemCallEntry) (s : State) : PlatformResult State :=
  if s.started then .refused .coreStarted
  else if entry.selector.toNat < 3 then .refused .builtInSelector
  else .ok { s with config := { s.config with
    syscallExt := entry :: s.config.syscallExt.filter (fun other => other.selector != entry.selector) } }

/-- Which hooks were called, in order, and the failure that stopped them. -/
structure HookRun where
  called : List Device
  failure : Option Nat
  deriving DecidableEq, Repr

/-- A lifecycle hook called on each device in registration order, stopping at the first failure (45_io_registry.md R290). -/
def runHooks (hook : Device → Option Nat) : List Device → HookRun
  | [] => { called := [], failure := none }
  | dev :: rest =>
    match hook dev with
    | some e => { called := [dev], failure := some e }
    | none => { called := dev :: (runHooks hook rest).called, failure := (runHooks hook rest).failure }

/-- `startup_all()` (45_io_registry.md R290). -/
def State.startupAll (s : State) : HookRun :=
  runHooks Device.startup s.config.devices

/-- `shutdown_all()` (45_io_registry.md R290). -/
def State.shutdownAll (s : State) : HookRun :=
  runHooks Device.shutdown s.config.devices

/-- `startup_all` as the platform calls it: once after reset, before the first step (45_io_registry.md R291; log 24). A failure
leaves the core otherwise as it was, in its reset state. -/
def State.callStartup (s : State) : PlatformResult (State × HookRun) :=
  if s.started then .refused .coreStarted
  else if s.lifecycle ≠ .beforeStartup then .refused .hookAlreadyCalled
  else .ok ({ s with lifecycle := if s.startupAll.failure.isNone then .startedUp else .startupFailed }, s.startupAll)

/-- `shutdown_all` as the platform calls it: once, when the core has halted, whether or not an error is latched
(45_io_registry.md R291; log 24). -/
def State.callShutdown (s : State) : PlatformResult (State × HookRun) :=
  if !s.halted then .refused .coreRunning
  else if s.lifecycle = .shutDown then .refused .hookAlreadyCalled
  else .ok ({ s with lifecycle := .shutDown }, s.shutdownAll)

/-- The run loop started (46_sequencer.md R309): only a core whose startup hooks have been run (45_io_registry.md R291). A device
registered after that does not stop the run, though its `Startup` has not been called and R420 of 70_reset_and_hazards.md lets a
program rely on every registered device being started: DESIGN CHOICE (log 27). -/
def State.startRun (s : State) : PlatformResult State :=
  if s.lifecycle = .startedUp then .ok s else .refused .notStartedUp

/-- `LoadImage(bytes)` (70_reset_and_hazards.md R415): refused after the first step or at a wrong length. -/
def State.loadImage (bytes : List Byte) (s : State) : PlatformResult State :=
  if s.started then .refused .coreStarted
  else if bytes.length = s.imageLength then .ok (s.withImage bytes)
  else .refused .wrongLength

/-- `Dump()` as the host may use it: when the core is not running (70_reset_and_hazards.md R416; 60_exceptions.md R390). -/
def State.hostDump (s : State) : PlatformResult (List Byte) :=
  if s.halted || !s.started then .ok s.dump else .refused .coreRunning

/-- What the host reads of a halted core (46_sequencer.md R309; 60_exceptions.md R374). -/
structure HostView where
  error : Option Error
  out : List (BitVec 32)
  regs : List Word
  code : Memory
  data : Memory
  stack : Memory
  call : Memory
  deriving DecidableEq, Repr

/-- The host reads registers, memories, `error` and `out` once `halted` is true (46_sequencer.md R309). -/
def State.hostView (s : State) : PlatformResult HostView :=
  if s.halted then
    .ok { error := s.error, out := s.out, regs := (List.range 256).map (fun n => s.reg (BitVec.ofNat 8 n)), code := s.code,
          data := s.data, stack := s.stack, call := s.call }
  else .refused .coreRunning

/-- The image load, where there is an image (70_reset_and_hazards.md R411 step 3). -/
def loadOptional (image : Option (List Byte)) (s : State) : PlatformResult State :=
  match image with
  | none => .ok s
  | some bytes => s.loadImage bytes

/-- What bring-up gives the platform: the core as far as it came, the devices whose startup hook was called, and why it
stopped, if it did. -/
structure BringUp where
  core : State
  called : List Device
  refusal : Option PlatformRefusal
  deriving DecidableEq, Repr

/-- Bring-up from the startup hooks on (70_reset_and_hazards.md R411 steps 4 and 5). If a hook fails the core stays in its reset
state, not halted with an error and its units idle, and the failure is reported (45_io_registry.md R291). -/
def startUp (s : State) : BringUp :=
  match s.callStartup with
  | .refused why => { core := s, called := [], refusal := some why }
  | .ok (t, run) =>
    match run.failure with
    | some e => { core := t, called := run.called, refusal := some (.hookFailed e) }
    | none => { core := t.startUnits, called := run.called, refusal := none }

/-- Bring-up (70_reset_and_hazards.md R411 steps 1 to 5): configure, register the devices, reset with launch values `l`, load
the image if there is one, run the startup hooks, start the units. It stops at the first step that is refused (log 26). -/
def bringUp (c : Config) (devices : List Device) (l : Launch) (image : Option (List Byte)) : BringUp :=
  match registerAll devices (State.launch { c with devices := [] } l) with
  | (s, some why) => { core := s, called := [], refusal := some why }
  | (s, none) =>
    match loadOptional image (s.hostReset l) with
    | .refused why => { core := s.hostReset l, called := [], refusal := some why }
    | .ok t => startUp t

/-- After the halt (70_reset_and_hazards.md R411 step 7; 45_io_registry.md R291): the units that still run are stopped, and the
shutdown hooks called. The composed core has stopped its units already, and none is sent a second `Stop`
(47_functional_units.md R353). -/
def State.afterHalt (s : State) : PlatformResult (State × HookRun) :=
  if s.halted then s.stopUnits.callShutdown else .refused .coreRunning

end Sys2Proof.Machine
end

