-- ==== Sys2Proof/Safety.lean ====
section
/-! DEFINITION. What counts as a good state and a good end, in the terms the statements use. -/

namespace Sys2Proof.Machine

/-- The run ended normally: Terminate, no error (46_sequencer.md R308). -/
abbrev State.normalEnd (s : State) : Prop :=
  s.halted = true ∧ s.error = none

/-- The run ended abnormally: an error is latched (46_sequencer.md R308). -/
abbrev State.abnormalEnd (s : State) : Prop :=
  s.halted = true ∧ s.error ≠ none

/-- A unit's own invariant (47_functional_units.md R321, R324): idle exactly when not running, a `Stop` pending only while an
outcome is offered, and fewer operands latched than an operation takes. -/
def UnitState.coherent (u : UnitId) (x : UnitState) : Bool :=
  match x.phase with
  | .idle => !x.running && !x.stopping
  | .awaitOp => x.running && !x.stopping
  | .awaitOperand _ got => x.running && !x.stopping && decide (got.length < unitArity u)
  | .emit _ => x.running

/-- Every unit coherent. -/
def State.unitsCoherent (s : State) : Bool :=
  allUnits.all (fun u => (s.unit u).coherent u)

/-- The four memories are in canonical form and list nothing outside their segment's part of the image. -/
abbrev State.MemoriesWf (s : State) : Prop :=
  (s.code.Wf ∧ s.code.Below (s.partLength .code)) ∧ (s.data.Wf ∧ s.data.Below (s.partLength .data)) ∧
  (s.stack.Wf ∧ s.stack.Below (s.partLength .stack)) ∧ (s.call.Wf ∧ s.call.Below (s.partLength .call))

/-- The invariant of the machine between steps: the parameters are legal (00_scope.md R6), the constant registers hold their
constants (10_state.md R21), the memories are canonical, no error without halting (46_sequencer.md R300), `advance_pc`
true between steps (10_state.md R35), and the units coherent (47_functional_units.md R321). -/
abbrev State.Inv (s : State) : Prop :=
  s.config.wellFormed = true ∧ s.regs[0] = 0#16 ∧ s.regs[1] = 1#16 ∧ s.MemoriesWf ∧
  (s.halted = false → s.error = none) ∧ s.advancePc = true ∧ s.unitsCoherent = true

end Sys2Proof.Machine
end

