-- ==== Sys2Proof/Certificates/Slice0/Obligations.lean ====
section
/-! DEFINITION. The statements about the model, for the provers. Each names the rules of spec/ it says; the helpers below
write down the shapes several of them share, in the rules' own terms. -/

namespace Sys2Proof.Statements

open Sys2Proof.Machine

/-- What an instruction, or a step, answers. -/
abbrev Result := Host.Outcome State Fault Refusal

/-- `f` applied to the next state of a result. -/
def mapNext (f : State → State) : Result → Result
  | .next t => .next (f t)
  | .fault why => .fault why
  | .refused why => .refused why

/-- A word of format R: byte 0, `d`, `s0`, `s1` from the low end (30_encoding.md R100). -/
def wordR (byte0 : Nat) (d s0 s1 : Byte) : Cell32 :=
  s1 ++ s0 ++ d ++ BitVec.ofNat 8 byte0

/-- A word of format I: byte 0, `d`, `imm` from the low end (30_encoding.md R100). -/
def wordI (byte0 : Nat) (d : Byte) (imm : Word) : Cell32 :=
  imm ++ d ++ BitVec.ofNat 8 byte0

/-- The register an arithmetic immediate form reads: its index is the low byte of the immediate (40_arithmetic.md R131). -/
def immRegister (imm : Word) : RegIdx :=
  BitVec.ofNat 8 (imm.toNat % 256)

/-- The instruction at `ip`, read from the bytes of the code segment in image order. -/
abbrev fetchesInstr (s : State) (i : Instr) : Prop :=
  s.ip.toNat < s.config.codeSize ∧
  decodeBytes [s.byteAt .code (4 * s.ip.toNat), s.byteAt .code (4 * s.ip.toNat + 1), s.byteAt .code (4 * s.ip.toNat + 2),
    s.byteAt .code (4 * s.ip.toNat + 3)] = .instr i []

/-- An error of each row of 60_exceptions.md R371, in its order. -/
def errorRows (i : RegIdx) (table : IndexTable) (n : Nat) (op : BitVec 5) (sel : Byte) (seg : Segment) (a v : Word) :
    List Machine.Error :=
  [.decodeRangeError, .writeProtected i, .indexOutOfRange table n, .divideByZero, .notImplemented op,
    .invalidMoveOperation op, .invalidCompareOperation op, .illegalJumpOperation op, .invalidMiscOperation op,
    .invalidSystemCommand sel, .addressOutOfRange seg a, .unmappedIoAddress a, .overlappingDevice, .panic v,
    .unitNotRunning, .unitAlreadyRunning, .deviceError a n]

/-- The error is a device's own. -/
def isDeviceError : Error → Bool
  | .deviceError _ _ => true
  | _ => false

/-- The error of a word no handler exists for in P16C, by the table of 30_encoding.md R116; `none`: some instruction's word. -/
def undefinedEncoding (r : DecodedInstruction) : Option Error :=
  if 5 ≤ r.group.toNat then some (.indexOutOfRange .group r.group.toNat)
  else if r.group.toNat = 0 then (if 22 ≤ r.op.toNat then some (.notImplemented r.op) else none)
  else if r.group.toNat = 1 then (if 17 ≤ r.op.toNat then some (.invalidMoveOperation r.op) else none)
  else if r.group.toNat = 2 then (if 24 ≤ r.op.toNat then some (.invalidCompareOperation r.op) else none)
  else if r.group.toNat = 3 then (if 17 ≤ r.op.toNat then some (.illegalJumpOperation r.op) else none)
  else if 1 ≤ r.op.toNat then some (.invalidMiscOperation r.op)
  else if 3 ≤ r.data0.toNat then some (.invalidSystemCommand r.data0)
  else none

/-- The bits of the word an instruction reads: its control byte, its selector, and the `fields` of its row in
spec/opcode_table.json (30_encoding.md R108, R121). -/
def readMask : Instr → Cell32
  | .add _ _ _ | .sub _ _ _ | .mul _ _ _ | .div _ _ _ | .rem _ _ _ | .shl _ _ _ | .shr _ _ _
  | .and _ _ _ | .or _ _ _ | .xor _ _ _ => 0xFFFFFFFF#32
  | .not _ _ | .inc _ _ | .dec _ _ | .double _ _ | .halve _ _ => 0x00FFFFFF#32
  | .addi _ _ | .subi _ _ | .muli _ _ | .divi _ _ | .remi _ _ | .shli _ _ | .shri _ _ => 0xFFFFFFFF#32
  | .move _ _ | .swap _ _ | .swapRm _ _ | .swapMm _ _ | .load _ _ | .store _ _ | .storeM _ _ => 0x00FFFFFF#32
  | .swapRi _ _ | .swapMi _ _ | .set _ _ | .loadI _ _ | .storeIa _ _ | .storeIv _ _ => 0xFFFFFFFF#32
  | .push _ => 0x00FF00FF#32
  | .pushI _ => 0xFFFF00FF#32
  | .pop _ | .peek _ => 0x0000FFFF#32
  | .eq _ _ | .eqAnd _ _ | .eqOr _ _ | .eqXor _ _ | .neq _ _ | .neqAnd _ _ | .neqOr _ _ | .neqXor _ _
  | .lt _ _ | .ltAnd _ _ | .ltOr _ _ | .ltXor _ _ | .gt _ _ | .gtAnd _ _ | .gtOr _ _ | .gtXor _ _
  | .le _ _ | .leAnd _ _ | .leOr _ _ | .leXor _ _ | .ge _ _ | .geAnd _ _ | .geOr _ _ | .geXor _ _ => 0xFFFF00FF#32
  | .bI _ | .callI _ | .btI _ | .calltI _ | .bfI _ | .callfI _ => 0xFFFF00FF#32
  | .bR _ | .callR _ | .btR _ | .calltR _ | .bfR _ | .callfR _ => 0x00FF00FF#32
  | .iteT _ _ | .iteF _ _ | .itecallT _ _ | .itecallF _ _ => 0xFFFF00FF#32
  | .ret => 0x000000FF#32
  | .syscallTerminate => 0x0000FFFF#32
  | .syscallPanic _ | .syscallPutc _ _ => 0xFFFFFFFF#32

/-- The registers an instruction writes through an operand byte, in the order in which it checks them
(60_exceptions.md R376). -/
def destinations : Instr → List RegIdx
  | .add d _ _ | .sub d _ _ | .mul d _ _ | .div d _ _ | .rem d _ _ | .shl d _ _ | .shr d _ _
  | .and d _ _ | .or d _ _ | .xor d _ _ => [d]
  | .not d _ | .inc d _ | .dec d _ | .double d _ | .halve d _ => [d]
  | .addi d _ | .subi d _ | .muli d _ | .divi d _ | .remi d _ | .shli d _ | .shri d _ => [d]
  | .move d _ | .set d _ | .load d _ | .loadI d _ | .pop d | .peek d | .swapRm d _ | .swapRi d _ => [d]
  | .swap d s0 => [d, s0]
  | .swapMm _ _ | .swapMi _ _ | .store _ _ | .storeM _ _ | .storeIa _ _ | .storeIv _ _ | .push _ | .pushI _ => []
  | .eq _ _ | .eqAnd _ _ | .eqOr _ _ | .eqXor _ _ | .neq _ _ | .neqAnd _ _ | .neqOr _ _ | .neqXor _ _
  | .lt _ _ | .ltAnd _ _ | .ltOr _ _ | .ltXor _ _ | .gt _ _ | .gtAnd _ _ | .gtOr _ _ | .gtXor _ _
  | .le _ _ | .leAnd _ _ | .leOr _ _ | .leXor _ _ | .ge _ _ | .geAnd _ _ | .geOr _ _ | .geXor _ _ => []
  | .bI _ | .callI _ | .btI _ | .calltI _ | .bfI _ | .callfI _ => []
  | .bR _ | .callR _ | .btR _ | .calltR _ | .bfR _ | .callfR _ => []
  | .iteT _ _ | .iteF _ _ | .itecallT _ _ | .itecallF _ _ | .ret => []
  | .syscallTerminate | .syscallPanic _ | .syscallPutc _ _ => []

/-- The special registers an instruction writes without naming them in an operand byte (10_state.md R26). -/
def implicitDestinations (i : Instr) : List RegIdx :=
  match i with
  | .push _ | .pushI _ | .pop _ => [9#8]
  | .eq _ _ | .eqAnd _ _ | .eqOr _ _ | .eqXor _ _ | .neq _ _ | .neqAnd _ _ | .neqOr _ _ | .neqXor _ _
  | .lt _ _ | .ltAnd _ _ | .ltOr _ _ | .ltXor _ _ | .gt _ _ | .gtAnd _ _ | .gtOr _ _ | .gtXor _ _
  | .le _ _ | .leAnd _ _ | .leOr _ _ | .leXor _ _ | .ge _ _ | .geAnd _ _ | .geOr _ _ | .geXor _ _ => [10#8]
  | .bI _ | .btI _ | .bfI _ | .bR _ | .btR _ | .bfR _ | .iteT _ _ | .iteF _ _ => [8#8]
  | .callI _ | .calltI _ | .callfI _ | .callR _ | .calltR _ | .callfR _ | .itecallT _ _ | .itecallF _ _ | .ret => [8#8, 11#8]
  | _ => []

/-- The cells an instruction may store to: the address is the one its rule gives. -/
def storedCells (i : Instr) (s : State) : List (Segment × Word) :=
  match i with
  | .store d _ | .storeM d _ | .storeIa d _ | .storeIv d _ => [(.data, s.reg d)]
  | .swapRm _ s0 => [(.data, s.reg s0)]
  | .swapRi _ imm => [(.data, imm)]
  | .swapMm d s0 => [(.data, s.reg d), (.data, s.reg s0)]
  | .swapMi d imm => [(.data, s.reg d), (.data, imm)]
  | .push _ | .pushI _ => [(.stack, pushAddress .dataStack s)]
  | .callI _ | .calltI _ | .callfI _ | .callR _ | .calltR _ | .callfR _ | .itecallT _ _ | .itecallF _ _ =>
    [(.call, pushAddress .callStack s)]
  | _ => []

/-- The data addresses an instruction accesses (41_move.md). -/
def dataAddresses (i : Instr) (s : State) : List Word :=
  match i with
  | .store d _ | .storeIv d _ => [s.reg d]
  | .storeM d s0 | .swapMm d s0 => [s.reg d, s.reg s0]
  | .storeIa d imm | .swapMi d imm => [s.reg d, imm]
  | .swapRm _ s0 | .load _ s0 => [s.reg s0]
  | .swapRi _ imm | .loadI _ imm => [imm]
  | _ => []

/-- The segments an opcode reaches, whatever its operands (20_memory.md R67); an instruction never reaches the code. -/
def reachedSegments (i : Instr) : List Segment :=
  match i with
  | .swapRm _ _ | .swapMm _ _ | .swapRi _ _ | .swapMi _ _ | .load _ _ | .loadI _ _ | .store _ _ | .storeM _ _
  | .storeIa _ _ | .storeIv _ _ => [.data]
  | .push _ | .pushI _ | .pop _ | .peek _ => [.stack]
  | .callI _ | .calltI _ | .callfI _ | .callR _ | .calltR _ | .callfR _ | .itecallT _ _ | .itecallF _ _ | .ret => [.call]
  | _ => []

/-- The divisor of an instruction that divides (60_exceptions.md R378). -/
def divisor (i : Instr) (s : State) : Option Word :=
  match i with
  | .div _ _ s1 | .rem _ _ s1 => some (s.reg s1)
  | .divi _ imm | .remi _ imm => some imm
  | _ => none

/-- The instruction pushes a return address in state `s` (43_jump.md R240 to R242). -/
def pushesReturn (i : Instr) (s : State) : Bool :=
  match i with
  | .callI _ | .callR _ | .itecallT _ _ | .itecallF _ _ => true
  | .calltI _ | .calltR _ => s.reg 10#8 != 0#16 || s.config.untakenCallPushes
  | .callfI _ | .callfR _ => s.reg 10#8 == 0#16 || s.config.untakenCallPushes
  | _ => false

/-- A step that runs the registered system call `call` (44_misc_syscall.md R270): as the built-in of that rule; and by the free
outcome where the rule is the platform's own (log 20). -/
def RegisteredCallSteps (call : SystemCall) (sel s0 s1 : Byte) (s : State) : Prop :=
  let next := fun t : State => t.setReg 8#8 (s.reg 8#8 + 1#16)
  (call = .terminate → step s = .next (next { s.beginStep with halted := true })) ∧
  (call = .panic → step s = .next (s.beginStep.takeError (.panic (s1 ++ s0)))) ∧
  (call = .putc → ∀ t, exec (.syscallPutc s0 s1) s.beginStep = .next t → step s = .next (next t)) ∧
  (call = .platform → step s =
    match Config.systemCallDraw sel (s1 ++ s0) (s.reg s0) (s.reg s1) (s0 == s1) with
    | .result halt emit c =>
      .next (next { s.beginStep with halted := halt, out := if emit then s.out ++ [c] else s.out })
    | .panic payload => .next (s.beginStep.takeError (.panic payload)))

/-- The state with one device access more on record. -/
def accessed (p : IoAccess) (s : State) : State :=
  { s with io := s.io ++ [p] }

/-! ### Shapes of the arithmetic, compare and jump rules -/

/-- A register form of the arithmetic group whose result is `f x[s0] x[s1]` modulo 2^16. -/
def ArithmeticForm (byte0 : Nat) (i : RegIdx → RegIdx → RegIdx → Instr) (f : Nat → Nat → Nat) : Prop :=
  ∀ (d s0 s1 : RegIdx) (s : State),
    decode (wordR byte0 d s0 s1) = .instr (i d s0 s1) ∧
    (d.toNat < 2 → exec (i d s0 s1) s = .next (s.takeError (.writeProtected d))) ∧
    (2 ≤ d.toNat →
      exec (i d s0 s1) s = .next (s.setReg d (BitVec.ofNat 16 (f (s.reg s0).toNat (s.reg s1).toNat))))

/-- A register form that divides: a divisor of 0 is an error whatever the destination. -/
def DivisionForm (byte0 : Nat) (i : RegIdx → RegIdx → RegIdx → Instr) (f : Nat → Nat → Nat) : Prop :=
  ∀ (d s0 s1 : RegIdx) (s : State),
    decode (wordR byte0 d s0 s1) = .instr (i d s0 s1) ∧
    (s.reg s1 = 0#16 → exec (i d s0 s1) s = .next (s.takeError .divideByZero)) ∧
    (s.reg s1 ≠ 0#16 → d.toNat < 2 → exec (i d s0 s1) s = .next (s.takeError (.writeProtected d))) ∧
    (s.reg s1 ≠ 0#16 → 2 ≤ d.toNat →
      exec (i d s0 s1) s = .next (s.setReg d (BitVec.ofNat 16 (f (s.reg s0).toNat (s.reg s1).toNat))))

/-- A unary form of the arithmetic group; byte 3 is ignored. -/
def UnaryForm (byte0 : Nat) (i : RegIdx → RegIdx → Instr) (f : Nat → Nat) : Prop :=
  ∀ (d s0 : RegIdx) (ignored : Byte) (s : State),
    decode (wordR byte0 d s0 ignored) = .instr (i d s0) ∧
    (d.toNat < 2 → exec (i d s0) s = .next (s.takeError (.writeProtected d))) ∧
    (2 ≤ d.toNat → exec (i d s0) s = .next (s.setReg d (BitVec.ofNat 16 (f (s.reg s0).toNat))))

/-- An immediate form of the arithmetic group: `arg0 = x[imm[7:0]]`, `arg1 = imm`. -/
def ImmediateForm (byte0 : Nat) (i : RegIdx → Word → Instr) (f : Nat → Nat → Nat) : Prop :=
  ∀ (d : RegIdx) (imm : Word) (s : State),
    decode (wordI byte0 d imm) = .instr (i d imm) ∧
    (d.toNat < 2 → exec (i d imm) s = .next (s.takeError (.writeProtected d))) ∧
    (2 ≤ d.toNat →
      exec (i d imm) s = .next (s.setReg d (BitVec.ofNat 16 (f (s.reg (immRegister imm)).toNat imm.toNat))))

/-- An immediate form that divides. -/
def ImmediateDivisionForm (byte0 : Nat) (i : RegIdx → Word → Instr) (f : Nat → Nat → Nat) : Prop :=
  ∀ (d : RegIdx) (imm : Word) (s : State),
    decode (wordI byte0 d imm) = .instr (i d imm) ∧
    (imm = 0#16 → exec (i d imm) s = .next (s.takeError .divideByZero)) ∧
    (imm ≠ 0#16 → d.toNat < 2 → exec (i d imm) s = .next (s.takeError (.writeProtected d))) ∧
    (imm ≠ 0#16 → 2 ≤ d.toNat →
      exec (i d imm) s = .next (s.setReg d (BitVec.ofNat 16 (f (s.reg (immRegister imm)).toNat imm.toNat))))

/-- A compare: only `pred` (register 10) is written, with 1 or 0; byte 1 is ignored (42_compare.md R200). -/
def CompareForm (byte0 : Nat) (i : RegIdx → RegIdx → Instr) (p : Nat → Nat → Bool) (c : Bool → Bool → Bool) : Prop :=
  ∀ (ignored : Byte) (s0 s1 : RegIdx) (s : State),
    decode (wordR byte0 ignored s0 s1) = .instr (i s0 s1) ∧
    exec (i s0 s1) s = .next (s.setReg 10#8
      (if c (decide (s.reg 10#8 ≠ 0#16)) (p (s.reg s0).toNat (s.reg s1).toNat) then 1#16 else 0#16))

/-- The combinator overwrite. -/
def overwriteRule (_old new : Bool) : Bool := new

/-- The combinator and. -/
def andRule (old new : Bool) : Bool := old && new

/-- The combinator or. -/
def orRule (old new : Bool) : Bool := old || new

/-- The combinator xor: the two differ. -/
def xorRule (old new : Bool) : Bool := decide (old ≠ new)

/-- The four compares of one relation, at ops `op` to `op + 3` (30_encoding.md R112). -/
def CompareForms (op : Nat) (plain withAnd withOr withXor : RegIdx → RegIdx → Instr) (p : Nat → Nat → Bool) : Prop :=
  CompareForm (8 * op + 2) plain p overwriteRule ∧ CompareForm (8 * (op + 1) + 2) withAnd p andRule ∧
  CompareForm (8 * (op + 2) + 2) withOr p orRule ∧ CompareForm (8 * (op + 3) + 2) withXor p xorRule

/-- The jump happened: `ip` (register 8) at `target`, `advance_pc` false, nothing else. -/
def jumped (target : Word) (s : State) : State :=
  { s.setReg 8#8 target with advancePc := false }

/-- The address after the instruction: `(ip + 1) mod 2^16`. -/
def afterIp (s : State) : Word :=
  BitVec.ofNat 16 ((s.reg 8#8).toNat + 1)

/-- `branch(target, true)`: the return address pushed on the call-stack by `csp` (register 11), then the jump
(43_jump.md R240). -/
def CallsTo (target : Word) (s : State) (o : Result) : Prop :=
  (s.config.callSize ≤ (s.reg 11#8 + 1#16).toNat →
    o = .next (s.takeError (.addressOutOfRange .call (s.reg 11#8 + 1#16)))) ∧
  ((s.reg 11#8 + 1#16).toNat < s.config.callSize →
    o = .next (jumped target ((s.setReg 11#8 (s.reg 11#8 + 1#16)).setMem .call
      (s.call.writeWord (s.reg 11#8 + 1#16).toNat (afterIp s)))))

/-- `conditional(taken, target, true)` (43_jump.md R241). -/
def ConditionallyCalls (taken : Prop) (target : Word) (s : State) (o : Result) : Prop :=
  (taken → CallsTo target s o) ∧
  (¬taken → s.config.untakenCallPushes = true → CallsTo (afterIp s) s o) ∧
  (¬taken → s.config.untakenCallPushes = false → o = .next (jumped (afterIp s) s))

/-! ### Shapes of the data-space accesses (20_memory.md R70 to R72) -/

/-- A data address some device or RAM answers. -/
abbrev Mapped (a : Word) (s : State) : Prop :=
  a.toNat < s.config.dataSize ∨ registryLookup s.config.devices a ≠ none

/-- The instruction with result `o` reads data address `a` in state `s` and goes on as `k` says. -/
def ReadsThen (a : Word) (s : State) (o : Result) (k : Word → State → Prop) : Prop :=
  (a.toNat < s.config.dataSize → k (s.data.readWord a.toNat) s) ∧
  (s.config.dataSize ≤ a.toNat → registryLookup s.config.devices a = none →
    o = .next (s.takeError (.unmappedIoAddress a))) ∧
  (∀ dev, s.config.dataSize ≤ a.toNat → registryLookup s.config.devices a = some dev →
    (∀ v, deviceAnswer dev s.io (.load a) = .ok v → k v (accessed (.load a) s)) ∧
    (∀ e, deviceAnswer dev s.io (.load a) = .error e →
      o = .next ((accessed (.load a) s).takeError (.deviceError a e))))

/-- The instruction with result `o` writes `v` to data address `a` in state `s` and goes on as `k` says. -/
def WritesThen (a v : Word) (s : State) (o : Result) (k : State → Prop) : Prop :=
  (a.toNat < s.config.dataSize → k (s.setMem .data (s.data.writeWord a.toNat v))) ∧
  (s.config.dataSize ≤ a.toNat → registryLookup s.config.devices a = none →
    o = .next (s.takeError (.unmappedIoAddress a))) ∧
  (∀ dev, s.config.dataSize ≤ a.toNat → registryLookup s.config.devices a = some dev →
    (∀ v', deviceAnswer dev s.io (.store a v) = .ok v' → k (accessed (.store a v) s)) ∧
    (∀ e, deviceAnswer dev s.io (.store a v) = .error e →
      o = .next ((accessed (.store a v) s).takeError (.deviceError a e))))

/-- `access` reaches a device that never answers it. -/
abbrev SilentAt (access : IoAccess) (s : State) : Prop :=
  ∃ dev, s.config.dataSize ≤ (accessAddress access).toNat ∧
    registryLookup s.config.devices (accessAddress access) = some dev ∧ deviceAnswer dev s.io access = .never

/-- The instruction with result `o` probes data address `a` in state `s` and goes on as `k` says. -/
def ProbesThen (a : Word) (s : State) (o : Result) (k : Prop) : Prop :=
  (¬Mapped a s → o = .next (s.takeError (.unmappedIoAddress a))) ∧ (Mapped a s → k)

/-- A load of register `d` from data address `a` (41_move.md R177, R178). -/
def LoadsFrom (d : RegIdx) (a : Word) (s : State) (o : Result) : Prop :=
  (d.toNat < 2 → o = .next (s.takeError (.writeProtected d))) ∧
  (2 ≤ d.toNat → a.toNat < s.config.dataSize → o = .next (s.setReg d (s.data.readWord a.toNat))) ∧
  (2 ≤ d.toNat → ReadsThen a s o fun v t => o = .next (t.setReg d v))

/-- A store of `v` to data address `a` (41_move.md R179, R182). -/
def StoresTo (a v : Word) (s : State) (o : Result) : Prop :=
  (a.toNat < s.config.dataSize → o = .next (s.setMem .data (s.data.writeWord a.toNat v))) ∧
  WritesThen a v s o fun t => o = .next t

/-- A copy from data address `b` to data address `a` (41_move.md R180, R181). -/
def CopiesFrom (a b : Word) (s : State) (o : Result) : Prop :=
  (a.toNat < s.config.dataSize → b.toNat < s.config.dataSize →
    o = .next (s.setMem .data (s.data.writeWord a.toNat (s.data.readWord b.toNat)))) ∧
  ProbesThen a s o (ReadsThen b s o fun v t => WritesThen a v t o fun u => o = .next u)

/-- Register `d` swapped with data address `a` (41_move.md R172, R174). -/
def SwapsRegister (d : RegIdx) (a : Word) (s : State) (o : Result) : Prop :=
  (d.toNat < 2 → o = .next (s.takeError (.writeProtected d))) ∧
  (2 ≤ d.toNat → a.toNat < s.config.dataSize →
    o = .next ((s.setMem .data (s.data.writeWord a.toNat (s.reg d))).setReg d (s.data.readWord a.toNat))) ∧
  (2 ≤ d.toNat → ReadsThen a s o fun m t => WritesThen a (s.reg d) t o fun u => o = .next (u.setReg d m))

/-- Data addresses `a1` and `a2` swapped (41_move.md R173, R175). -/
def SwapsCells (a1 a2 : Word) (s : State) (o : Result) : Prop :=
  (a1.toNat < s.config.dataSize → a2.toNat < s.config.dataSize →
    o = .next (s.setMem .data ((s.data.writeWord a1.toNat (s.data.readWord a2.toNat)).writeWord a2.toNat
      (s.data.readWord a1.toNat)))) ∧
  (a1 = a2 → a1.toNat < s.config.dataSize → ∃ t, o = .next t ∧ ∀ seg n, t.byteAt seg n = s.byteAt seg n) ∧
  ProbesThen a1 s o (ProbesThen a2 s o (ReadsThen a1 s o fun m1 t1 => ReadsThen a2 t1 o fun m2 t2 =>
    WritesThen a1 m2 t2 o fun t3 => WritesThen a2 m1 t3 o fun t4 => o = .next t4))

/-- A push of `v` on the data-stack by `sp`, register 9 (41_move.md R183, R184; 20_memory.md R75). -/
def PushesData (v : Word) (s : State) (o : Result) : Prop :=
  (s.config.stackSize ≤ (s.reg 9#8 + 1#16).toNat →
    o = .next (s.takeError (.addressOutOfRange .stack (s.reg 9#8 + 1#16)))) ∧
  ((s.reg 9#8 + 1#16).toNat < s.config.stackSize →
    o = .next ((s.setReg 9#8 (s.reg 9#8 + 1#16)).setMem .stack (s.stack.writeWord (s.reg 9#8 + 1#16).toNat v)))

/-! ### The functional units -/

/-- The result of an arithmetic op code as a formula (47_functional_units.md R335; 40_arithmetic.md R132 to R153):
`none` for a code without a function, `some none` for a division by zero. -/
def aluFormula (op a b : Nat) : Option (Option Nat) :=
  match op with
  | 0 | 15 => some (some (a + b))
  | 1 | 16 => some (some (65536 + a - b))
  | 2 | 17 => some (some (a * b))
  | 3 | 18 => some (if b = 0 then none else some (a / b))
  | 4 | 19 => some (if b = 0 then none else some (a % b))
  | 5 | 20 => some (some (if 16 ≤ b then 0 else a * 2 ^ b))
  | 6 | 21 => some (some (if 16 ≤ b then 0 else a / 2 ^ b))
  | 7 => some (some (Nat.land a b))
  | 8 => some (some (Nat.lor a b))
  | 9 => some (some (65535 - a))
  | 10 => some (some (Nat.xor a b))
  | 11 => some (some (a + 1))
  | 12 => some (some (65536 + a - 1))
  | 13 => some (some (a * 2))
  | 14 => some (some (a / 2))
  | _ => none

/-- The relation of a compare op code (47_functional_units.md R336; 42_compare.md R201). -/
def relationHolds (op a b : Nat) : Bool :=
  match op / 4 with
  | 0 => decide (a = b)
  | 1 => decide (a ≠ b)
  | 2 => decide (a < b)
  | 3 => decide (b < a)
  | 4 => decide (a ≤ b)
  | _ => decide (b ≤ a)

/-- The combinator of a compare op code (42_compare.md R201). -/
def combined (op : Nat) (old new : Bool) : Bool :=
  match op % 4 with
  | 0 => overwriteRule old new
  | 1 => andRule old new
  | 2 => orRule old new
  | _ => xorRule old new

end Sys2Proof.Statements

open Sys2Proof Sys2Proof.Machine Sys2Proof.Statements

/-! ### Encoding -/

/-- 30_encoding.md R107: encode and decode are exact inverses, `encode` is the stated formula, wider values are refused, and
no step raises `DecodeRangeError`. -/
def Obligations.CodecFieldsExactInverse : Prop :=
  (∀ r : DecodedInstruction, decodeFields (encodeFields r) = r ∧
    (encodeFields r).toNat = r.group.toNat ||| r.op.toNat <<< 3 ||| r.data0.toNat <<< 8 ||| r.data1.toNat <<< 16 |||
      r.data2.toNat <<< 24) ∧
  (∀ w : Cell32, encodeFields (decodeFields w) = w) ∧
  (∀ v : FieldValues, v.group < 8 → v.op < 32 → v.data0 < 256 → v.data1 < 256 → v.data2 < 256 →
    ∃ w, encodeChecked v = some w ∧ (decodeFields w).values = v) ∧
  (∀ v : FieldValues, 8 ≤ v.group ∨ 32 ≤ v.op ∨ 256 ≤ v.data0 ∨ 256 ≤ v.data1 ∨ 256 ≤ v.data2 → encodeChecked v = none) ∧
  (∀ s t : State, s.running = true → step s = .next t → t.error ≠ some .decodeRangeError)

/-- 30_encoding.md R101, R105, R106: each field of the decoded record, and the immediate, as bits of the word. -/
def Obligations.DecodeFieldValues : Prop :=
  ∀ w : Cell32,
    (decodeFields w).group.toNat = w.toNat % 8 ∧ (decodeFields w).op.toNat = w.toNat / 8 % 32 ∧
    (decodeFields w).data0.toNat = w.toNat / 256 % 256 ∧ (decodeFields w).data1.toNat = w.toNat / 65536 % 256 ∧
    (decodeFields w).data2.toNat = w.toNat / 16777216 ∧
    (decodeFields w).immediate.toNat = w.toNat / 65536 ∧
    (decodeFields w).immediate.toNat = 256 * (decodeFields w).data2.toNat + (decodeFields w).data1.toNat

/-- Decode of encode is the instruction itself, for every instruction and every operand (30_encoding.md R107 to R115). -/
def Obligations.DecodeInvertsEncode : Prop :=
  ∀ i : Instr, i.wellFormed = true → decode (encode i) = .instr i ∧
    decodeBytes [cellByte (encode i) 0, cellByte (encode i) 1, cellByte (encode i) 2, cellByte (encode i) 3] = .instr i [] ∧
    decodeTableWord 32 (encode i).toNat = some i

/-- A word is an instruction's word exactly when the bits that instruction reads are its own: every other bit is ignored
(30_encoding.md R108, R121). -/
def Obligations.DecodeReadsExactlyTheFields : Prop :=
  ∀ (w : Cell32) (i : Instr), decode w = .instr i ↔ w &&& readMask i = encode i

/-- Words written out from the encoding tables decode to the instructions they stand for (30_encoding.md R110 to R115). -/
def Obligations.SampleWordsDecode : Prop :=
  decode 0x03020200#32 = .instr (.add 2 2 3) ∧ decode 0x01020478#32 = .instr (.addi 4 0x0102) ∧
  decode 0x00050231#32 = .instr (.set 2 5) ∧ decode 0x12340161#32 = .instr (.storeIv 1 0x1234) ∧
  decode 0x030200BA#32 = .instr (.geXor 2 3) ∧ decode 0x0100002B#32 = .instr (.calltI 0x0100) ∧
  decode 0x09090983#32 = .instr .ret ∧ decode 0x03020204#32 = .instr (.syscallPutc 2 3) ∧
  decode 0x03020448#32 = .instr (.not 4 2)

/-- 30_encoding.md R116: the complete list of undefined encodings, the error each raises as its only effect, and the count of
control bytes. A selector raises its error where the system-call table holds Invalid for it (44_misc_syscall.md R276), as it does
for all of 3 to 255 where nothing is registered. -/
def Obligations.UndefinedEncodings : Prop :=
  (∀ w : Cell32, (∃ i, decode w = .instr i) ↔ undefinedEncoding (decodeFields w) = none) ∧
  (∀ (s : State) (e : Error), s.running = true → s.ip.toNat < s.config.codeSize →
    undefinedEncoding (decodeFields (s.code.readCell s.ip.toNat)) = some e →
    (∀ sel, e = .invalidSystemCommand sel → systemCallTable s.config sel = .invalid) →
    step s = .next (s.beginStep.takeError e)) ∧
  (∀ (c : Config) (sel : Byte), c.syscallExt = [] → 3 ≤ sel.toNat → systemCallTable c sel = .invalid) ∧
  ((List.range 256).filter (fun b => (undefinedEncoding (decodeFields (BitVec.ofNat 32 b))).isNone)).length = 81 ∧
  ((List.range 256).filter (fun b => (undefinedEncoding (decodeFields (BitVec.ofNat 32 b))).isSome)).length = 175

/-! ### Registers and reset -/

/-- 10_state.md R21, R22, R23: reads of constants and of written slots, and the protection of registers 0 and 1, as an
operation and for every instruction that names one of them as a written operand. The record update says the frame: no field
but the register file changes, and no other slot of it. -/
def Obligations.RegisterReadWriteRules : Prop :=
  (∀ (s : State) (i : RegIdx) (v : Word),
    s.reg 0#8 = 0#16 ∧ s.reg 1#8 = 1#16 ∧
    (i.toNat < 2 → writeReg i v s = .raised (.writeProtected i) s) ∧
    (2 ≤ i.toNat → ∃ t, writeReg i v s = .done () t ∧ t = s.setReg i v ∧ t = { s with regs := t.regs } ∧
      t.reg i = v ∧ ∀ r, r ≠ i → t.reg r = s.reg r)) ∧
  (∀ (i : Instr) (s : State) (r : RegIdx), r ∈ destinations i → r.toNat < 2 → divisor i s ≠ some 0#16 →
    ∃ r', r'.toNat < 2 ∧ exec i s = .next (s.takeError (.writeProtected r')))

/-- 10_state.md R29: a general register that no operand byte names is neither read nor written by the instruction. -/
def Obligations.GeneralRegistersOnlyThroughOperands : Prop :=
  (∀ (i : Instr) (r : RegIdx) (v : Word) (s : State),
    2 ≤ r.toNat → (r.toNat < 8 ∨ 12 ≤ r.toNat) → r ∉ i.operands.1 →
    exec i (s.setReg r v) = mapNext (State.setReg r v) (exec i s)) ∧
  ((List.range 256).filter (fun n => decide (2 ≤ n ∧ (n < 8 ∨ 12 ≤ n)))).length = 250

/-- 60_exceptions.md R376, R378: when `WriteProtected` and `DivideByZero` are raised, as the only effect, which comes first,
and that nothing else raises them. -/
def Obligations.WriteProtectionAndDivideByZero : Prop :=
  ∀ (i : Instr) (s : State),
    (divisor i s = some 0#16 → exec i s = .next (s.takeError .divideByZero)) ∧
    (∀ r, divisor i s ≠ some 0#16 → (destinations i).find? (fun d => decide (d.toNat < 2)) = some r →
      exec i s = .next (s.takeError (.writeProtected r))) ∧
    (∀ t, s.error = none → exec i s = .next t →
      (t.error = some .divideByZero → divisor i s = some 0#16) ∧
      (∀ r, t.error = some (.writeProtected r) → r ∈ destinations i ∧ r.toNat < 2))

/-- 70_reset_and_hazards.md R410: what reset by the host leaves, from any state; the general registers and the memories are
the launch input. That the record `io` of device accesses survives a reset (log 5), and that a step asked of a halted core
answers its state (log 7), are the model's choices. -/
def Obligations.HostResetValues : Prop :=
  ∀ (l : Launch) (s : State),
    (s.hostReset l).reg 8#8 = 0#16 ∧ (s.hostReset l).reg 9#8 = 0xFFFF#16 ∧ (s.hostReset l).reg 10#8 = 0#16 ∧
    (s.hostReset l).reg 11#8 = 0xFFFF#16 ∧ (s.hostReset l).halted = false ∧ (s.hostReset l).advancePc = true ∧
    (s.hostReset l).error = none ∧ (s.hostReset l).out = [] ∧
    (∀ u, ((s.hostReset l).unit u).running = false ∧ ((s.hostReset l).unit u).phase = .idle) ∧
    (∀ r : RegIdx, 2 ≤ r.toNat → (r.toNat < 8 ∨ 12 ≤ r.toNat) → (s.hostReset l).reg r = l.regs[r.toNat]'r.isLt) ∧
    (s.hostReset l).code = l.code ∧ (s.hostReset l).data = l.data ∧ (s.hostReset l).stack = l.stack ∧
    (s.hostReset l).call = l.call ∧ (s.hostReset l).config = s.config ∧ (s.hostReset l).io = s.io ∧
    (s.halted = true → step s = .next s)

/-- The state right after reset. The values of 10_state.md R45 are the spec's; that every general register is 0, that every
memory byte reads 0 and that the parameters are the reference column of R6 are the model's choices (logs 2, 3 and 1). -/
def Obligations.ResetStateValues : Prop :=
  State.reset.reg 8#8 = 0#16 ∧ State.reset.reg 9#8 = 0xFFFF#16 ∧ State.reset.reg 10#8 = 0#16 ∧
  State.reset.reg 11#8 = 0xFFFF#16 ∧ State.reset.advancePc = true ∧ State.reset.halted = false ∧
  State.reset.error = none ∧ State.reset.out = [] ∧ (∀ u, (State.reset.unit u).running = false) ∧
  (∀ r : RegIdx, 2 ≤ r.toNat → (r.toNat < 8 ∨ 12 ≤ r.toNat) → State.reset.reg r = 0#16) ∧
  (∀ seg n, State.reset.byteAt seg n = 0#8) ∧
  State.reset.config = { codeSize := 65536, dataSize := 65280, stackSize := 65536, callSize := 65536,
                         untakenCallPushes := true, devices := [], syscallExt := [] }

/-- The invariant holds right after reset, in the reference configuration and in every legal one. -/
def Obligations.ResetMeetsInvariant : Prop :=
  State.reset.Inv ∧
  ∀ (c : Config) (l : Launch), c.wellFormed = true →
    l.code.Wf → l.code.Below (4 * c.codeSize) → l.data.Wf → l.data.Below (2 * c.dataSize) →
    l.stack.Wf → l.stack.Below (2 * c.stackSize) → l.call.Wf → l.call.Below (2 * c.callSize) →
    (State.launch c l).Inv

/-- Every step keeps the invariant: legal parameters, constants in slots 0 and 1, canonical memories within their segments,
no error latched by a core that is not halted, `advance_pc` true, coherent units. -/
def Obligations.StepKeepsInvariant : Prop :=
  ∀ s t : State, s.Inv → step s = .next t → t.Inv

/-! ### The sequencer -/

/-- 46_sequencer.md R301, R302, R305: a step of a running core runs the instruction whose bytes stand at `ip`, then advances; an
error skips the advance. The model's own choices in it: the field `started` (log 8); a step asked of a state that is not
Running answers that state, also where an error is latched and the core is not halted (log 7); what a registered system call
does (log 20). -/
def Obligations.StepRunsDecodedInstruction : Prop :=
  (∀ s : State, s.beginStep = { s with advancePc := true, started := true }) ∧
  (∀ (s : State) (i : Instr), s.running = true → fetchesInstr s i →
    (∀ t, exec i s.beginStep = .next t → t.error = none → t.advancePc = true →
      step s = .next (t.setReg 8#8 (t.reg 8#8 + 1#16))) ∧
    (∀ t, exec i s.beginStep = .next t → t.error = none → t.advancePc = false →
      step s = .next { t with advancePc := true }) ∧
    (∀ t, exec i s.beginStep = .next t → t.error ≠ none → step s = .next t) ∧
    (∀ why, exec i s.beginStep = .fault why → step s = .fault why)) ∧
  (∀ s : State, s.running = true → s.config.codeSize ≤ s.ip.toNat →
    step s = .next (s.beginStep.takeError (.addressOutOfRange .code s.ip))) ∧
  (∀ (s : State) (u : Undefined), s.running = true → s.ip.toNat < s.config.codeSize →
    decode (s.code.readCell s.ip.toNat) = .undefined u →
    (∀ sel s0 s1, u = .systemCommand sel s0 s1 → systemCallTable s.config sel = .invalid) →
    step s = .next (s.beginStep.takeError (undefinedError u))) ∧
  (∀ (s : State) (sel s0 s1 : Byte), s.running = true → s.ip.toNat < s.config.codeSize →
    decode (s.code.readCell s.ip.toNat) = .undefined (.systemCommand sel s0 s1) →
    RegisteredCallSteps (systemCallTable s.config sel) sel s0 s1 s) ∧
  (∀ s : State, s.running = false → step s = .next s)

/-- 20_memory.md R66: a code read out of range raises, and else returns the cell; no side effect. That the cell stands in four
bytes of the memory, low byte first, is the model's layout, read from 30_encoding.md R100 and 70_reset_and_hazards.md R415
(log 9). -/
def Obligations.CodeReadRule : Prop :=
  ∀ (a : Word) (s : State),
    (s.config.codeSize ≤ a.toNat → codeRead a s = .raised (.addressOutOfRange .code a) s) ∧
    (a.toNat < s.config.codeSize → codeRead a s = .done (s.code.readCell a.toNat) s ∧
      (s.code.readCell a.toNat).toNat = (s.byteAt .code (4 * a.toNat)).toNat +
        256 * (s.byteAt .code (4 * a.toNat + 1)).toNat + 65536 * (s.byteAt .code (4 * a.toNat + 2)).toNat +
        16777216 * (s.byteAt .code (4 * a.toNat + 3)).toNat)

/-- 46_sequencer.md R306: a halted core does nothing, however many steps are asked of it; a step asked of it answers the same
state (log 7). -/
def Obligations.HaltedCoreDoesNothing : Prop :=
  ∀ (n : Nat) (s : State), s.halted = true → Host.Core.run Sys2Proof.core n s = .next s

/-- 46_sequencer.md R300: a running core leaves Running by Terminate or by an error only, and never latches an error
without halting. Where the platform has registered system calls, one of them may be what terminates. -/
def Obligations.RunningCoreTransitions : Prop :=
  (∀ (c : Config) (l : Launch) (s : State), (State.launch c l).running = true ∧ (s.hostReset l).running = true) ∧
  (∀ s : State, s.halted = true → step s = .next s) ∧
  (∀ s t : State, s.running = true → step s = .next t →
    (t.running = true ∧ t.halted = false ∧ t.error = none) ∨
    (t.halted = true ∧ t.error = none ∧ (s.config.syscallExt = [] → fetchesInstr s .syscallTerminate)) ∨
    (t.halted = true ∧ t.error ≠ none))

/-- 60_exceptions.md R372, R373: a step that ends in an error leaves everything as it was, `ip` at the faulting instruction;
after a `DeviceError` the registers, the code, the stacks and the output are still as they were, and the device accesses made
are only added to. -/
def Obligations.ErrorsArePrecise : Prop :=
  ∀ (s t : State) (e : Error), s.running = true → step s = .next t → t.error = some e →
    t.halted = true ∧ t.advancePc = true ∧
    (isDeviceError e = false → t = s.beginStep.takeError e) ∧
    (isDeviceError e = true →
      t = { s.beginStep.takeError e with data := t.data, io := t.io } ∧ (∃ made, made ≠ [] ∧ t.io = s.io ++ made) ∧
      ∀ i, fetchesInstr s i → ∀ n,
        (∀ c ∈ storedCells i s, n ≠ 2 * c.2.toNat ∧ n ≠ 2 * c.2.toNat + 1) → t.byteAt .data n = s.byteAt .data n)

/-- 60_exceptions.md R375 and the table of R371: what a step can latch, the numeric codes, and that an error is the pair of
its code and its payload. -/
def Obligations.OnlyReachableErrors : Prop :=
  (∀ i table n op sel seg a v, (errorRows i table n op sel seg a v).map Error.code = (List.range 17).map (· + 1)) ∧
  (∀ e f : Machine.Error, e = f ↔ e.code = f.code ∧ e.payload = f.payload) ∧
  ∀ (s t : State) (e : Error), s.running = true → step s = .next t → t.error = some e →
    e ≠ .decodeRangeError ∧ e ≠ .overlappingDevice ∧ e ≠ .unitNotRunning ∧ e ≠ .unitAlreadyRunning ∧
    (∀ n, e ≠ .indexOutOfRange .register n) ∧ (∀ n, e = .indexOutOfRange .group n → 5 ≤ n ∧ n ≤ 7) ∧
    (∀ sel, e = .invalidSystemCommand sel → systemCallTable s.config sel = .invalid) ∧
    (∀ seg a, e = .addressOutOfRange seg a → seg ≠ .data ∧ s.size seg ≤ a.toNat) ∧
    (∀ a, e = .unmappedIoAddress a → ¬Mapped a s) ∧
    (∀ a n, e = .deviceError a n → s.config.dataSize ≤ a.toNat ∧ registryLookup s.config.devices a ≠ none)

/-- No step changes the configuration or the code segment: the tables and the device list are setup-time (30_encoding.md R113;
45_io_registry.md R287), code changes only by an image load (20_memory.md R91). That the sequential step leaves the units as they
are is the model's choice (log 10). -/
def Obligations.StepKeepsConfigurationAndCode : Prop :=
  ∀ s t : State, step s = .next t → t.config = s.config ∧ t.code = s.code ∧ t.units = s.units

/-- 20_memory.md R67: an instruction neither reads nor writes a segment its opcode does not reach, and none reaches the
code: replacing such a segment changes nothing else of what the instruction does. -/
def Obligations.SegmentsAreSeparate : Prop :=
  (∀ (i : Instr) (seg : Segment) (m : Memory) (s : State), seg ∉ reachedSegments i →
    exec i (s.setMem seg m) = mapNext (State.setMem seg m) (exec i s)) ∧
  (∀ (a : Word) (seg : Segment) (m : Memory) (s : State), seg ≠ .code →
    ∀ w, codeRead a s = .done w s → codeRead a (s.setMem seg m) = .done w (s.setMem seg m))

/-- The frame of every instruction: the registers, the bytes of memory, the device accesses, the output and the flags it
leaves when it answers a next state (10_state.md R26, R29, R34; 20_memory.md R65, R67; 60_exceptions.md R372). -/
def Obligations.InstructionFrame : Prop :=
  ∀ (i : Instr) (s t : State), exec i s = .next t →
    (∀ r, r ∉ destinations i → r ∉ implicitDestinations i → t.reg r = s.reg r) ∧
    (∀ seg n, (∀ c ∈ storedCells i s, c.1 = seg → n ≠ 2 * c.2.toNat ∧ n ≠ 2 * c.2.toNat + 1) →
      t.byteAt seg n = s.byteAt seg n) ∧
    t.code = s.code ∧ t.config = s.config ∧ t.units = s.units ∧ t.started = s.started ∧
    ((∀ a ∈ dataAddresses i s, a.toNat < s.config.dataSize) → t.io = s.io) ∧
    ((∀ s0 s1, i ≠ .syscallPutc s0 s1) → t.out = s.out) ∧
    (s.error = none → t.error = none →
      (i ≠ .syscallTerminate → t.halted = s.halted) ∧
      (8#8 ∉ implicitDestinations i → t.advancePc = s.advancePc))

/-! ### Arithmetic -/

/-- 40_arithmetic.md R132, R133, R134, R137, R138; the whole Word is the shift amount, never reduced modulo 16. -/
def Obligations.AddSubMulShiftRules : Prop :=
  ArithmeticForm 0x00 .add (fun a b => a + b) ∧ ArithmeticForm 0x08 .sub (fun a b => 65536 + a - b) ∧
  ArithmeticForm 0x10 .mul (fun a b => a * b) ∧
  ArithmeticForm 0x28 .shl (fun a n => if 16 ≤ n then 0 else a * 2 ^ n) ∧
  ArithmeticForm 0x30 .shr (fun a n => if 16 ≤ n then 0 else a / 2 ^ n)

/-- 40_arithmetic.md R135, R136, with the division laws. -/
def Obligations.DivisionRules : Prop :=
  DivisionForm 0x18 .div (fun a b => a / b) ∧ DivisionForm 0x20 .rem (fun a b => a % b) ∧
  (∀ (s t u : State) (d s0 s1 : RegIdx), 2 ≤ d.toNat → s.reg s1 ≠ 0#16 → exec (.div d s0 s1) s = .next t →
    exec (.rem d s0 s1) s = .next u → (s.reg s1).toNat * (t.reg d).toNat + (u.reg d).toNat = (s.reg s0).toNat)

/-- 40_arithmetic.md R139, R140, R142. -/
def Obligations.BitwiseRules : Prop :=
  ArithmeticForm 0x38 .and Nat.land ∧ ArithmeticForm 0x40 .or Nat.lor ∧ ArithmeticForm 0x50 .xor Nat.xor

/-- 40_arithmetic.md R141, R143, R144, R145, R146. -/
def Obligations.UnaryRules : Prop :=
  UnaryForm 0x48 .not (fun a => 0xFFFF - a) ∧ UnaryForm 0x58 .inc (fun a => a + 1) ∧
  UnaryForm 0x60 .dec (fun a => 65536 + a - 1) ∧ UnaryForm 0x68 .double (fun a => a * 2) ∧
  UnaryForm 0x70 .halve (fun a => a / 2)

/-- 40_arithmetic.md R147, R148, R149, R152, R153. -/
def Obligations.ImmediateArithmeticRules : Prop :=
  ImmediateForm 0x78 .addi (fun a b => a + b) ∧ ImmediateForm 0x80 .subi (fun a b => 65536 + a - b) ∧
  ImmediateForm 0x88 .muli (fun a b => a * b) ∧
  ImmediateForm 0xA0 .shli (fun a n => if 16 ≤ n then 0 else a * 2 ^ n) ∧
  ImmediateForm 0xA8 .shri (fun a n => if 16 ≤ n then 0 else a / 2 ^ n)

/-- 40_arithmetic.md R150, R151. -/
def Obligations.ImmediateDivisionRules : Prop :=
  ImmediateDivisionForm 0x90 .divi (fun a b => a / b) ∧ ImmediateDivisionForm 0x98 .remi (fun a b => a % b)

/-! ### Compare -/

/-- 42_compare.md R202 to R209. -/
def Obligations.EqualityCompareRules : Prop :=
  CompareForms 0 .eq .eqAnd .eqOr .eqXor (fun a b => decide (a = b)) ∧
  CompareForms 4 .neq .neqAnd .neqOr .neqXor (fun a b => decide (a ≠ b))

/-- 42_compare.md R210 to R217. -/
def Obligations.StrictCompareRules : Prop :=
  CompareForms 8 .lt .ltAnd .ltOr .ltXor (fun a b => decide (a < b)) ∧
  CompareForms 12 .gt .gtAnd .gtOr .gtXor (fun a b => decide (b < a))

/-- 42_compare.md R218 to R225. -/
def Obligations.WeakCompareRules : Prop :=
  CompareForms 16 .le .leAnd .leOr .leXor (fun a b => decide (a ≤ b)) ∧
  CompareForms 20 .ge .geAnd .geOr .geXor (fun a b => decide (b ≤ a))

/-- 42_compare.md R227: the laws over two instructions: complements, the exchange of operands, a conjunction over two
compares, and a register with itself. -/
def Obligations.CompareLaws : Prop :=
  ∀ (a b c e : RegIdx) (s : State),
    (∃ t u, exec (.eq a b) s = .next t ∧ exec (.neq a b) s = .next u ∧ (t.reg 10#8).toNat + (u.reg 10#8).toNat = 1) ∧
    (∃ t u, exec (.lt a b) s = .next t ∧ exec (.ge a b) s = .next u ∧ (t.reg 10#8).toNat + (u.reg 10#8).toNat = 1) ∧
    (∃ t u, exec (.gt a b) s = .next t ∧ exec (.le a b) s = .next u ∧ (t.reg 10#8).toNat + (u.reg 10#8).toNat = 1) ∧
    exec (.lt a b) s = exec (.gt b a) s ∧ exec (.le a b) s = exec (.ge b a) s ∧
    (c ≠ 10#8 → e ≠ 10#8 → ∃ t u, exec (.lt a b) s = .next t ∧ exec (.eqAnd c e) t = .next u ∧
      (u.reg 10#8 = 1#16 ↔ (s.reg a).toNat < (s.reg b).toNat ∧ s.reg c = s.reg e) ∧ (u.reg 10#8).toNat ≤ 1) ∧
    (exec (.eq a a) s = .next (s.setReg 10#8 1#16) ∧ exec (.le a a) s = .next (s.setReg 10#8 1#16) ∧
      exec (.ge a a) s = .next (s.setReg 10#8 1#16) ∧ exec (.neq a a) s = .next (s.setReg 10#8 0#16) ∧
      exec (.lt a a) s = .next (s.setReg 10#8 0#16) ∧ exec (.gt a a) s = .next (s.setReg 10#8 0#16))

/-! ### Jump -/

/-- 43_jump.md R244, R246, R248, R250, R252, R254: the branches; no target is checked, nothing is pushed. -/
def Obligations.BranchRules : Prop :=
  ∀ (imm : Word) (s0 x y : RegIdx) (s : State),
    (decode (wordI 0x03 x imm) = .instr (.bI imm) ∧ exec (.bI imm) s = .next (jumped imm s)) ∧
    (decode (wordR 0x13 x s0 y) = .instr (.bR s0) ∧ exec (.bR s0) s = .next (jumped (s.reg s0) s)) ∧
    (decode (wordI 0x23 x imm) = .instr (.btI imm) ∧
      exec (.btI imm) s = .next (jumped (if s.reg 10#8 ≠ 0#16 then imm else afterIp s) s)) ∧
    (decode (wordR 0x33 x s0 y) = .instr (.btR s0) ∧
      exec (.btR s0) s = .next (jumped (if s.reg 10#8 ≠ 0#16 then s.reg s0 else afterIp s) s)) ∧
    (decode (wordI 0x43 x imm) = .instr (.bfI imm) ∧
      exec (.bfI imm) s = .next (jumped (if s.reg 10#8 = 0#16 then imm else afterIp s) s)) ∧
    (decode (wordR 0x53 x s0 y) = .instr (.bfR s0) ∧
      exec (.bfR s0) s = .next (jumped (if s.reg 10#8 = 0#16 then s.reg s0 else afterIp s) s))

/-- 43_jump.md R245, R247, R260. -/
def Obligations.CallAndReturnRules : Prop :=
  ∀ (imm : Word) (s0 x y z : RegIdx) (s : State),
    (decode (wordI 0x0B x imm) = .instr (.callI imm) ∧ CallsTo imm s (exec (.callI imm) s)) ∧
    (decode (wordR 0x1B x s0 y) = .instr (.callR s0) ∧ CallsTo (s.reg s0) s (exec (.callR s0) s)) ∧
    decode (wordR 0x83 x y z) = .instr .ret ∧
    (s.config.callSize ≤ (s.reg 11#8).toNat → exec .ret s = .next (s.takeError (.addressOutOfRange .call (s.reg 11#8)))) ∧
    ((s.reg 11#8).toNat < s.config.callSize →
      exec .ret s = .next (jumped (s.call.readWord (s.reg 11#8).toNat) (s.setReg 11#8 (s.reg 11#8 - 1#16))))

/-- 43_jump.md R249, R251, R253, R255, with both values of `UNTAKEN_CALL_PUSHES`. -/
def Obligations.ConditionalCallRules : Prop :=
  ∀ (imm : Word) (s0 x y : RegIdx) (s : State),
    (decode (wordI 0x2B x imm) = .instr (.calltI imm) ∧
      ConditionallyCalls (s.reg 10#8 ≠ 0#16) imm s (exec (.calltI imm) s)) ∧
    (decode (wordR 0x3B x s0 y) = .instr (.calltR s0) ∧
      ConditionallyCalls (s.reg 10#8 ≠ 0#16) (s.reg s0) s (exec (.calltR s0) s)) ∧
    (decode (wordI 0x4B x imm) = .instr (.callfI imm) ∧
      ConditionallyCalls (s.reg 10#8 = 0#16) imm s (exec (.callfI imm) s)) ∧
    (decode (wordR 0x5B x s0 y) = .instr (.callfR s0) ∧
      ConditionallyCalls (s.reg 10#8 = 0#16) (s.reg s0) s (exec (.callfR s0) s))

/-- 43_jump.md R256, R257, R258, R259. -/
def Obligations.IfThenElseRules : Prop :=
  ∀ (s0 s1 x : RegIdx) (s : State),
    (decode (wordR 0x63 x s0 s1) = .instr (.iteT s0 s1) ∧
      exec (.iteT s0 s1) s = .next (jumped (if s.reg 10#8 ≠ 0#16 then s.reg s0 else s.reg s1) s)) ∧
    (decode (wordR 0x6B x s0 s1) = .instr (.iteF s0 s1) ∧
      exec (.iteF s0 s1) s = .next (jumped (if s.reg 10#8 = 0#16 then s.reg s0 else s.reg s1) s)) ∧
    (decode (wordR 0x73 x s0 s1) = .instr (.itecallT s0 s1) ∧
      CallsTo (if s.reg 10#8 ≠ 0#16 then s.reg s0 else s.reg s1) s (exec (.itecallT s0 s1) s)) ∧
    (decode (wordR 0x7B x s0 s1) = .instr (.itecallF s0 s1) ∧
      CallsTo (if s.reg 10#8 = 0#16 then s.reg s0 else s.reg s1) s (exec (.itecallF s0 s1) s))

/-- 43_jump.md R262: a call that pushes, followed by `ret` at its target, continues after the call with every register but
`ip` restored. -/
def Obligations.CallThenReturn : Prop :=
  ∀ (s t : State) (i : Instr), s.running = true → fetchesInstr s i → pushesReturn i s = true →
    (s.reg 11#8 + 1#16).toNat < s.config.callSize → step s = .next t → fetchesInstr t .ret →
    ∃ u, Host.Core.run Sys2Proof.core 2 s = .next u ∧ u.running = true ∧ u.reg 8#8 = s.reg 8#8 + 1#16 ∧
      u.reg 11#8 = s.reg 11#8 ∧ (∀ r, r ≠ 8#8 → u.reg r = s.reg r) ∧ u.data = s.data ∧ u.stack = s.stack ∧ u.out = s.out

/-! ### Move -/

/-- 41_move.md R170, R171, R176. -/
def Obligations.RegisterMoveRules : Prop :=
  ∀ (d s0 x : RegIdx) (imm : Word) (s : State),
    (decode (wordR 0x01 d s0 x) = .instr (.move d s0) ∧
      (d.toNat < 2 → exec (.move d s0) s = .next (s.takeError (.writeProtected d))) ∧
      (2 ≤ d.toNat → exec (.move d s0) s = .next (s.setReg d (s.reg s0))) ∧
      (2 ≤ d.toNat → d = s0 → exec (.move d s0) s = .next s)) ∧
    (decode (wordR 0x09 d s0 x) = .instr (.swap d s0) ∧
      (d.toNat < 2 → exec (.swap d s0) s = .next (s.takeError (.writeProtected d))) ∧
      (2 ≤ d.toNat → s0.toNat < 2 → exec (.swap d s0) s = .next (s.takeError (.writeProtected s0))) ∧
      (2 ≤ d.toNat → 2 ≤ s0.toNat → exec (.swap d s0) s = .next ((s.setReg d (s.reg s0)).setReg s0 (s.reg d))) ∧
      (2 ≤ d.toNat → d = s0 → exec (.swap d s0) s = .next s)) ∧
    (decode (wordI 0x31 d imm) = .instr (.set d imm) ∧
      (d.toNat < 2 → exec (.set d imm) s = .next (s.takeError (.writeProtected d))) ∧
      (2 ≤ d.toNat → exec (.set d imm) s = .next (s.setReg d imm)))

/-- 41_move.md R177, R178. The accesses made stand in `io`, a field of the model's own (log 5). -/
def Obligations.LoadRules : Prop :=
  ∀ (d s0 x : RegIdx) (imm : Word) (s : State),
    (decode (wordR 0x39 d s0 x) = .instr (.load d s0) ∧ LoadsFrom d (s.reg s0) s (exec (.load d s0) s)) ∧
    (decode (wordI 0x41 d imm) = .instr (.loadI d imm) ∧ LoadsFrom d imm s (exec (.loadI d imm) s))

/-- 41_move.md R179, R182. The accesses made stand in `io`, a field of the model's own (log 5). -/
def Obligations.StoreRules : Prop :=
  ∀ (d s0 x : RegIdx) (imm : Word) (s : State),
    (decode (wordR 0x49 d s0 x) = .instr (.store d s0) ∧ StoresTo (s.reg d) (s.reg s0) s (exec (.store d s0) s)) ∧
    (decode (wordI 0x61 d imm) = .instr (.storeIv d imm) ∧ StoresTo (s.reg d) imm s (exec (.storeIv d imm) s))

/-- 41_move.md R180, R181. The accesses made stand in `io`, a field of the model's own (log 5). -/
def Obligations.MemoryCopyRules : Prop :=
  ∀ (d s0 x : RegIdx) (imm : Word) (s : State),
    (decode (wordR 0x51 d s0 x) = .instr (.storeM d s0) ∧
      CopiesFrom (s.reg d) (s.reg s0) s (exec (.storeM d s0) s)) ∧
    (decode (wordI 0x59 d imm) = .instr (.storeIa d imm) ∧ CopiesFrom (s.reg d) imm s (exec (.storeIa d imm) s))

/-- 41_move.md R172, R174. The accesses made stand in `io`, a field of the model's own (log 5). -/
def Obligations.RegisterCellSwapRules : Prop :=
  ∀ (d s0 x : RegIdx) (imm : Word) (s : State),
    (decode (wordR 0x11 d s0 x) = .instr (.swapRm d s0) ∧ SwapsRegister d (s.reg s0) s (exec (.swapRm d s0) s)) ∧
    (decode (wordI 0x21 d imm) = .instr (.swapRi d imm) ∧ SwapsRegister d imm s (exec (.swapRi d imm) s))

/-- 41_move.md R173, R175. The accesses made stand in `io`, a field of the model's own (log 5). -/
def Obligations.CellSwapRules : Prop :=
  ∀ (d s0 x : RegIdx) (imm : Word) (s : State),
    (decode (wordR 0x19 d s0 x) = .instr (.swapMm d s0) ∧
      SwapsCells (s.reg d) (s.reg s0) s (exec (.swapMm d s0) s)) ∧
    (decode (wordI 0x29 d imm) = .instr (.swapMi d imm) ∧ SwapsCells (s.reg d) imm s (exec (.swapMi d imm) s))

/-- 47_functional_units.md R354: the only unbounded wait is a device that never answers, and it shows as a hang. That a hang is
the fault `deviceNeverAnswers` is the model's rendering (log 6). The first access of every instruction that has one, and the
converse: nothing else blocks, and nothing is refused. -/
def Obligations.OnlySilentDevicesBlock : Prop :=
  (∀ (d s0 : RegIdx) (imm : Word) (s : State),
    (2 ≤ d.toNat → SilentAt (.load (s.reg s0)) s →
      exec (.load d s0) s = .fault (.deviceNeverAnswers (s.reg s0)) ∧
      exec (.swapRm d s0) s = .fault (.deviceNeverAnswers (s.reg s0))) ∧
    (2 ≤ d.toNat → SilentAt (.load imm) s →
      exec (.loadI d imm) s = .fault (.deviceNeverAnswers imm) ∧ exec (.swapRi d imm) s = .fault (.deviceNeverAnswers imm)) ∧
    (SilentAt (.store (s.reg d) (s.reg s0)) s → exec (.store d s0) s = .fault (.deviceNeverAnswers (s.reg d))) ∧
    (SilentAt (.store (s.reg d) imm) s → exec (.storeIv d imm) s = .fault (.deviceNeverAnswers (s.reg d))) ∧
    (Mapped (s.reg d) s → SilentAt (.load (s.reg s0)) s →
      exec (.storeM d s0) s = .fault (.deviceNeverAnswers (s.reg s0))) ∧
    (Mapped (s.reg d) s → SilentAt (.load imm) s → exec (.storeIa d imm) s = .fault (.deviceNeverAnswers imm)) ∧
    (Mapped (s.reg s0) s → SilentAt (.load (s.reg d)) s →
      exec (.swapMm d s0) s = .fault (.deviceNeverAnswers (s.reg d))) ∧
    (Mapped imm s → SilentAt (.load (s.reg d)) s → exec (.swapMi d imm) s = .fault (.deviceNeverAnswers (s.reg d)))) ∧
  (∀ (i : Instr) (s : State) (why : Fault), exec i s = .fault why →
    ∃ a ∈ dataAddresses i s, why = .deviceNeverAnswers a ∧ s.config.dataSize ≤ a.toNat ∧
      registryLookup s.config.devices a ≠ none) ∧
  (∀ (s : State) (why : Fault), step s = .fault why →
    ∃ i, fetchesInstr s i ∧ ∃ a ∈ dataAddresses i s, why = .deviceNeverAnswers a) ∧
  (∀ (i : Instr) (s : State) (why : Refusal), exec i s ≠ .refused why ∧ step s ≠ .refused why)

/-- 41_move.md R183, R184. -/
def Obligations.PushRules : Prop :=
  ∀ (s0 x y : RegIdx) (imm : Word) (s : State),
    (decode (wordR 0x69 x s0 y) = .instr (.push s0) ∧ PushesData (s.reg s0) s (exec (.push s0) s)) ∧
    (decode (wordI 0x71 x imm) = .instr (.pushI imm) ∧ PushesData imm s (exec (.pushI imm) s))

/-- 41_move.md R185, R186: the register is written last, so `pop sp` and `peek sp` end with the loaded value. -/
def Obligations.PopPeekRules : Prop :=
  ∀ (d x y : RegIdx) (s : State),
    decode (wordR 0x79 d x y) = .instr (.pop d) ∧ decode (wordR 0x81 d x y) = .instr (.peek d) ∧
    (d.toNat < 2 → exec (.pop d) s = .next (s.takeError (.writeProtected d)) ∧
      exec (.peek d) s = .next (s.takeError (.writeProtected d))) ∧
    (2 ≤ d.toNat → s.config.stackSize ≤ (s.reg 9#8).toNat →
      exec (.pop d) s = .next (s.takeError (.addressOutOfRange .stack (s.reg 9#8))) ∧
      exec (.peek d) s = .next (s.takeError (.addressOutOfRange .stack (s.reg 9#8)))) ∧
    (2 ≤ d.toNat → (s.reg 9#8).toNat < s.config.stackSize →
      exec (.pop d) s =
        .next ((s.setReg 9#8 (s.reg 9#8 - 1#16)).setReg d (s.stack.readWord (s.reg 9#8).toNat)) ∧
      exec (.peek d) s = .next (s.setReg d (s.stack.readWord (s.reg 9#8).toNat)))

/-! ### Memory -/

/-- 20_memory.md R70, R71, R72: `MemRead`, `MemWrite`, `MemProbe`. The accesses made stand in `io`, a field of the model's own
(log 5). -/
def Obligations.RouterRules : Prop :=
  ∀ (a v : Word) (s : State),
    (a.toNat < s.config.dataSize →
      memRead a s = .done (s.data.readWord a.toNat) s ∧
      memWrite a v s = .done () (s.setMem .data (s.data.writeWord a.toNat v)) ∧ memProbe a s = .done () s) ∧
    (s.config.dataSize ≤ a.toNat → registryLookup s.config.devices a = none →
      memRead a s = .raised (.unmappedIoAddress a) s ∧ memWrite a v s = .raised (.unmappedIoAddress a) s ∧
      memProbe a s = .raised (.unmappedIoAddress a) s) ∧
    (∀ dev, s.config.dataSize ≤ a.toNat → registryLookup s.config.devices a = some dev →
      memProbe a s = .done () s ∧
      (∀ w, deviceAnswer dev s.io (.load a) = .ok w → memRead a s = .done w (accessed (.load a) s)) ∧
      (∀ e, deviceAnswer dev s.io (.load a) = .error e →
        memRead a s = .raised (.deviceError a e) (accessed (.load a) s)) ∧
      (∀ w, deviceAnswer dev s.io (.store a v) = .ok w → memWrite a v s = .done () (accessed (.store a v) s)) ∧
      (∀ e, deviceAnswer dev s.io (.store a v) = .error e →
        memWrite a v s = .raised (.deviceError a e) (accessed (.store a v) s)))

/-- A RAM cell reads back what was written to it, and every other byte of every segment keeps its value
(20_memory.md R62, R65, R87). That cell `a` stands in bytes `2a` (low) and `2a + 1` (high) is the model's layout (log 9). -/
def Obligations.MemReadAfterMemWrite : Prop :=
  ∀ (a b v : Word) (s : State), a.toNat < s.config.dataSize →
    ∃ t, memWrite a v s = .done () t ∧ memRead a t = .done v t ∧
      (b ≠ a → b.toNat < s.config.dataSize → memRead b t = .done (s.data.readWord b.toNat) t) ∧
      (t.byteAt .data (2 * a.toNat)).toNat = v.toNat % 256 ∧ (t.byteAt .data (2 * a.toNat + 1)).toNat = v.toNat / 256 ∧
      (∀ seg n, seg ≠ .data ∨ (n ≠ 2 * a.toNat ∧ n ≠ 2 * a.toNat + 1) → t.byteAt seg n = s.byteAt seg n)

/-- 20_memory.md R75, R76, R77: `Push`, `Pop`, `Peek` on both stacks, and that a pop returns what was pushed. -/
def Obligations.StackRules : Prop :=
  ∀ (k : StackId) (v : Word) (s : State),
    (s.size (stackSegment k) ≤ (s.reg (stackPointer k) + 1#16).toNat →
      push k v s = .raised (.addressOutOfRange (stackSegment k) (s.reg (stackPointer k) + 1#16)) s) ∧
    ((s.reg (stackPointer k) + 1#16).toNat < s.size (stackSegment k) →
      ∃ t, push k v s = .done () t ∧
        t = (s.setReg (stackPointer k) (s.reg (stackPointer k) + 1#16)).setMem (stackSegment k)
          ((s.mem (stackSegment k)).writeWord (s.reg (stackPointer k) + 1#16).toNat v) ∧
        t.reg (stackPointer k) = s.reg (stackPointer k) + 1#16 ∧
        (∀ r, r ≠ stackPointer k → t.reg r = s.reg r) ∧
        (t.mem (stackSegment k)).readWord (s.reg (stackPointer k) + 1#16).toNat = v ∧
        pop k t = .done v (t.setReg (stackPointer k) (s.reg (stackPointer k)))) ∧
    (s.size (stackSegment k) ≤ (s.reg (stackPointer k)).toNat →
      pop k s = .raised (.addressOutOfRange (stackSegment k) (s.reg (stackPointer k))) s ∧
      peek k s = .raised (.addressOutOfRange (stackSegment k) (s.reg (stackPointer k))) s) ∧
    ((s.reg (stackPointer k)).toNat < s.size (stackSegment k) →
      pop k s = .done ((s.mem (stackSegment k)).readWord (s.reg (stackPointer k)).toNat)
        (s.setReg (stackPointer k) (s.reg (stackPointer k) - 1#16)) ∧
      peek k s = .done ((s.mem (stackSegment k)).readWord (s.reg (stackPointer k)).toNat) s)

/-! ### Misc -/

/-- 44_misc_syscall.md R271, R272, R273: the three system calls, as instructions and, for the two that halt, as steps. -/
def Obligations.SystemCallRules : Prop :=
  (∀ (s0 s1 : RegIdx) (imm : Word) (s : State),
    (decode (wordR 0x04 0 s0 s1) = .instr .syscallTerminate ∧
      exec .syscallTerminate s = .next { s with halted := true }) ∧
    (decode (wordI 0x04 1 imm) = .instr (.syscallPanic imm) ∧
      exec (.syscallPanic imm) s = .next (s.takeError (.panic imm))) ∧
    (decode (wordR 0x04 2 s0 s1) = .instr (.syscallPutc s0 s1) ∧
      (s0 = s1 → exec (.syscallPutc s0 s1) s =
        .next { s with out := s.out ++ [BitVec.ofNat 32 ((s.reg s0).toNat % 256)] }) ∧
      (s0 ≠ s1 → exec (.syscallPutc s0 s1) s =
        .next { s with out := s.out ++ [BitVec.ofNat 32 (65536 * (s.reg s1).toNat + (s.reg s0).toNat)] }))) ∧
  (∀ s : State, s.running = true → fetchesInstr s .syscallTerminate →
    ∃ t, step s = .next t ∧ t.halted = true ∧ t.error = none ∧ t.reg 8#8 = s.reg 8#8 + 1#16 ∧
      (∀ r, r ≠ 8#8 → t.reg r = s.reg r)) ∧
  (∀ (s : State) (imm : Word), s.running = true → fetchesInstr s (.syscallPanic imm) →
    ∃ t, step s = .next t ∧ t.halted = true ∧ t.error = some (.panic imm) ∧ ∀ r, t.reg r = s.reg r)

/-! ### Devices -/

/-- 45_io_registry.md R286, R288: a bad range is refused, an overlap fails with `OverlappingDevice` and changes nothing,
else the device is appended; no instruction raises that error. Registration comes before the first step
(46_sequencer.md R309). -/
def Obligations.RegisterRules : Prop :=
  (∀ (dev : Device) (a : Word), respondsTo dev a = true ↔ dev.first.toNat ≤ a.toNat ∧ a.toNat ≤ dev.last.toNat) ∧
  (∀ (dev : Device) (s : State), s.started = false → devicesWellFormed s.config.devices = true →
    (dev.last.toNat < dev.first.toNat → s.register dev = .refused .badRange) ∧
    (dev.first.toNat ≤ dev.last.toNat →
      ((∃ e ∈ s.config.devices, ∃ a : Word, dev.first.toNat ≤ a.toNat ∧ a.toNat ≤ dev.last.toNat ∧ respondsTo e a = true) →
        s.register dev = .refused (.setupError .overlappingDevice)) ∧
      ((∀ e ∈ s.config.devices, ∀ a : Word, dev.first.toNat ≤ a.toNat → a.toNat ≤ dev.last.toNat → respondsTo e a = false) →
        s.register dev = .ok { s with config := { s.config with devices := s.config.devices ++ [dev] } } ∧
        devicesWellFormed (s.config.devices ++ [dev]) = true))) ∧
  (∀ s t : State, s.running = true → step s = .next t → t.error ≠ some .overlappingDevice)

/-- 45_io_registry.md R289: the lookup finds the first device that responds, and the only one where the ranges are
disjoint. -/
def Obligations.LookupFindsTheOneDevice : Prop :=
  ∀ (devices : List Device) (a : Word),
    (∀ dev, registryLookup devices a = some dev ↔
      ∃ before after, devices = before ++ dev :: after ∧ respondsTo dev a = true ∧
        ∀ e ∈ before, respondsTo e a = false) ∧
    (registryLookup devices a = none ↔ ∀ e ∈ devices, respondsTo e a = false) ∧
    (devicesWellFormed devices = true → ∀ e ∈ devices, respondsTo e a = true → registryLookup devices a = some e)

/-- 45_io_registry.md R290: the hooks are called in registration order and stop at the first failure, which is returned. -/
def Obligations.HooksStopAtFirstFailure : Prop :=
  ∀ s : State,
    ((∀ dev ∈ s.config.devices, dev.startup = none) →
      s.startupAll = { called := s.config.devices, failure := none }) ∧
    (∀ before dev after e, s.config.devices = before ++ dev :: after → (∀ b ∈ before, b.startup = none) →
      dev.startup = some e → s.startupAll = { called := before ++ [dev], failure := some e }) ∧
    ((∀ dev ∈ s.config.devices, dev.shutdown = none) →
      s.shutdownAll = { called := s.config.devices, failure := none }) ∧
    (∀ before dev after e, s.config.devices = before ++ dev :: after → (∀ b ∈ before, b.shutdown = none) →
      dev.shutdown = some e → s.shutdownAll = { called := before ++ [dev], failure := some e })

/-! ### Image -/

/-- 70_reset_and_hazards.md R415: the image's cells, little-endian, in the order code, data, stack, call-stack; nothing else
changes; a wrong length is refused, and so is a load after the first step (`started`: log 8). -/
def Obligations.LoadImageCells : Prop :=
  State.reset.imageLength = 654848 ∧
  (∀ (bytes : List Byte) (s : State), s.started = true → s.loadImage bytes = .refused .coreStarted) ∧
  ∀ (bytes : List Byte) (s : State), s.started = false →
    (bytes.length ≠ s.imageLength → s.loadImage bytes = .refused .wrongLength) ∧
    s.imageLength = 4 * s.config.codeSize + 2 * s.config.dataSize + 2 * s.config.stackSize + 2 * s.config.callSize ∧
    (bytes.length = s.imageLength → ∃ t, s.loadImage bytes = .ok t ∧
      t = { s with code := t.code, data := t.data, stack := t.stack, call := t.call } ∧
      (∀ k, k < s.config.codeSize → t.code.readCell k =
        cellOfBytes (bytes.getD (4 * k) 0) (bytes.getD (4 * k + 1) 0) (bytes.getD (4 * k + 2) 0) (bytes.getD (4 * k + 3) 0)) ∧
      (∀ k, k < s.config.dataSize → t.data.readWord k =
        bytes.getD (4 * s.config.codeSize + 2 * k + 1) 0 ++ bytes.getD (4 * s.config.codeSize + 2 * k) 0) ∧
      (∀ k, k < s.config.stackSize → t.stack.readWord k =
        bytes.getD (4 * s.config.codeSize + 2 * s.config.dataSize + 2 * k + 1) 0 ++
          bytes.getD (4 * s.config.codeSize + 2 * s.config.dataSize + 2 * k) 0) ∧
      (∀ k, k < s.config.callSize → t.call.readWord k =
        bytes.getD (4 * s.config.codeSize + 2 * s.config.dataSize + 2 * s.config.stackSize + 2 * k + 1) 0 ++
          bytes.getD (4 * s.config.codeSize + 2 * s.config.dataSize + 2 * s.config.stackSize + 2 * k) 0))

/-- 70_reset_and_hazards.md R416: the dump has the image's length and layout and is the inverse of the load. "`Dump` is used when
the core is not running": that it is refused to the host while the core runs, which is decided by `halted` and the model's own
field `started` (log 8), is the model's rendering. -/
def Obligations.DumpOfLoadedImage : Prop :=
  (∀ s : State, s.dump.length = s.imageLength ∧
    (s.halted = true ∨ s.started = false → s.hostDump = .ok s.dump) ∧
    (s.halted = false → s.started = true → s.hostDump = .refused .coreRunning) ∧
    (∀ n, n < 4 * s.config.codeSize → s.dump.getD n 0 = s.byteAt .code n) ∧
    (∀ n, n < 2 * s.config.dataSize → s.dump.getD (4 * s.config.codeSize + n) 0 = s.byteAt .data n) ∧
    (∀ n, n < 2 * s.config.stackSize →
      s.dump.getD (4 * s.config.codeSize + 2 * s.config.dataSize + n) 0 = s.byteAt .stack n) ∧
    (∀ n, n < 2 * s.config.callSize →
      s.dump.getD (4 * s.config.codeSize + 2 * s.config.dataSize + 2 * s.config.stackSize + n) 0 = s.byteAt .call n)) ∧
  (∀ (bytes : List Byte) (s t : State), s.loadImage bytes = .ok t → t.dump = bytes)

/-! ### Functional units -/

/-- 47_functional_units.md R323, R324, R325: the transitions of a unit as an agent. The pending reply of a `Stop` stands in
`stopping` (log 17). `unitAccepts` is true of every operation but the Store of MEM.code, which R338 has for the image load only:
StorageUnitOperations says when it is. -/
def Obligations.UnitTransitions : Prop :=
  ∀ (u : UnitId) (s : State),
    ((s.unit u).phase = .idle →
      unitEvent u .start s = .happened (some .ok) none (s.setUnit u .awaiting) ∧
      unitEvent u .stop s = .happened (some (.failed .unitNotRunning)) none s ∧
      (∀ code, unitEvent u (.operation code) s = .waits) ∧ (∀ i v, unitEvent u (.operand i v) s = .waits) ∧
      unitEvent u .takeResult s = .waits ∧ unitEvent u .takeError s = .waits) ∧
    (s.unit u = .awaiting →
      unitEvent u .start s = .happened (some (.failed .unitAlreadyRunning)) none s ∧
      unitEvent u .stop s = .happened (some .ok) none (s.setUnit u .created) ∧
      (∀ code, unitAccepts u code s = true → unitEvent u (.operation code) s =
        .happened none none (s.setUnit u { running := true, phase := .awaitOperand code [], stopping := false })) ∧
      (∀ i v, unitEvent u (.operand i v) s = .waits)) ∧
    (∀ code got, s.unit u = { running := true, phase := .awaitOperand code got, stopping := false } →
      unitEvent u .start s = .happened (some (.failed .unitAlreadyRunning)) none s ∧
      unitEvent u .stop s = .happened (some .ok) none (s.setUnit u .created) ∧
      (∀ op, unitEvent u (.operation op) s = .waits) ∧
      (∀ i v, i ≠ got.length + 1 → unitEvent u (.operand i v) s = .waits) ∧
      (∀ v, unitAccepts u code s = true → got.length + 1 ≠ unitArity u → unitEvent u (.operand (got.length + 1) v) s = .happened none none
        (s.setUnit u { running := true, phase := .awaitOperand code (got ++ [v]), stopping := false })) ∧
      (∀ v r t, unitAccepts u code s = true → got.length + 1 = unitArity u → unitCompute u code (got ++ [v]) s = .done r t →
        unitEvent u (.operand (got.length + 1) v) s = .happened none none
          (t.setUnit u { running := true, phase := .emit (.result r), stopping := false })) ∧
      (∀ v e t, unitAccepts u code s = true → got.length + 1 = unitArity u → unitCompute u code (got ++ [v]) s = .raised e t →
        unitEvent u (.operand (got.length + 1) v) s = .happened none none
          (t.setUnit u { running := true, phase := .emit (.error e), stopping := false }))) ∧
    (∀ o, s.unit u = { running := true, phase := .emit o, stopping := false } →
      unitEvent u .start s = .happened (some (.failed .unitAlreadyRunning)) none s ∧
      unitEvent u .stop s =
        .happened none none (s.setUnit u { running := true, phase := .emit o, stopping := true }) ∧
      (∀ code, unitEvent u (.operation code) s = .waits) ∧
      (∀ r, o = .result r → unitEvent u .takeResult s = .happened none (some o) (s.setUnit u .awaiting) ∧
        unitEvent u .takeError s = .waits) ∧
      (∀ e, o = .error e → unitEvent u .takeError s = .happened none (some o) (s.setUnit u .awaiting) ∧
        unitEvent u .takeResult s = .waits)) ∧
    (∀ o, s.unit u = { running := true, phase := .emit o, stopping := true } →
      (∀ code, unitEvent u (.operation code) s = .waits) ∧
      (∀ r, o = .result r → unitEvent u .takeResult s = .happened (some .ok) (some o) (s.setUnit u .created)) ∧
      (∀ e, o = .error e → unitEvent u .takeError s = .happened (some .ok) (some o) (s.setUnit u .created)))

/-- Every event of every unit, in any interleaving, keeps the invariant of the machine, the other units and the
configuration; an outcome is delivered only where one was offered (47_functional_units.md R321, R326, R330, R331). That a
further `Start` or `Stop` waits while a `Stop` is pending, and that once a step has been taken no unit writes the code segment,
are the model's readings (logs 17 and 25). -/
def Obligations.UnitEventsKeepInvariant : Prop :=
  (∀ (u : UnitId) (ev : UnitEvent) (s t : State) (reply : Option ControlReply) (o : Option UnitOutcome),
    s.Inv → unitEvent u ev s = .happened reply o t →
    t.Inv ∧ t.config = s.config ∧ (∀ v, v ≠ u → t.unit v = s.unit v) ∧ (s.started = true → t.code = s.code) ∧
    (∀ x, o = some x → (s.unit u).phase = .emit x ∧ (t.unit u = .awaiting ∨ t.unit u = .created)) ∧
    ((t.unit u).running = false ↔ (t.unit u).phase = .idle)) ∧
  (∀ (u : UnitId) (s : State) (o : UnitOutcome), s.unit u = { running := true, phase := .emit o, stopping := true } →
    unitEvent u .start s = .waits ∧ unitEvent u .stop s = .waits)

/-- 47_functional_units.md R333, R335, R336, R337: complete operations of RF, ALU, CMP, BRU and DEC, each of which ends with
the unit waiting again. Ports carry 32 bits and codes 8 (log 11). -/
def Obligations.UnitOperations : Prop :=
  ∀ s : State,
    (s.unit .rf = .awaiting → ∀ (i : RegIdx) (v : Word) (x : BitVec 32),
      operate .rf 0#8 [i.setWidth 32, x] s = .done (.word (s.reg i)) s ∧
      (i.toNat < 2 → operate .rf 1#8 [i.setWidth 32, v.setWidth 32] s = .raised (.writeProtected i) s) ∧
      (2 ≤ i.toNat → operate .rf 1#8 [i.setWidth 32, v.setWidth 32] s = .done (.word v) (s.setReg i v))) ∧
    (s.unit .dec = .awaiting → ∀ w : Cell32, operate .dec 0#8 [w] s = .done (.record (decodeFields w)) s) ∧
    (s.unit .alu = .awaiting → ∀ (op : BitVec 5) (a b : Word),
      (∀ r, aluFormula op.toNat a.toNat b.toNat = some (some r) →
        operate .alu (op.setWidth 8) [a.setWidth 32, b.setWidth 32] s = .done (.word (BitVec.ofNat 16 r)) s) ∧
      (aluFormula op.toNat a.toNat b.toNat = some none →
        operate .alu (op.setWidth 8) [a.setWidth 32, b.setWidth 32] s = .raised .divideByZero s) ∧
      (aluFormula op.toNat a.toNat b.toNat = none →
        operate .alu (op.setWidth 8) [a.setWidth 32, b.setWidth 32] s = .raised (.notImplemented op) s)) ∧
    (s.unit .cmp = .awaiting → ∀ (op : BitVec 5) (pred a b : Word),
      (op.toNat < 24 → operate .cmp (op.setWidth 8) [pred.setWidth 32, a.setWidth 32, b.setWidth 32] s =
        .done (.word (if combined op.toNat (decide (pred ≠ 0#16)) (relationHolds op.toNat a.toNat b.toNat) then 1#16
          else 0#16)) s) ∧
      (24 ≤ op.toNat → operate .cmp (op.setWidth 8) [pred.setWidth 32, a.setWidth 32, b.setWidth 32] s =
        .raised (.invalidCompareOperation op) s)) ∧
    (s.unit .bru = .awaiting → ∀ (op : BitVec 5) (ip pred t f : Word),
      let result := operate .bru (op.setWidth 8) [ip.setWidth 32, pred.setWidth 32, t.setWidth 32, f.setWidth 32] s
      let pushes := s.config.untakenCallPushes
      let next := ip + 1#16
      (op.toNat = 0 ∨ op.toNat = 2 → result = .done (.branch false false t) s) ∧
      (op.toNat = 1 ∨ op.toNat = 3 → result = .done (.branch false true t) s) ∧
      (op.toNat = 4 ∨ op.toNat = 6 → result = .done (.branch false false (if pred ≠ 0#16 then t else next)) s) ∧
      (op.toNat = 8 ∨ op.toNat = 10 → result = .done (.branch false false (if pred = 0#16 then t else next)) s) ∧
      (op.toNat = 5 ∨ op.toNat = 7 → (pred ≠ 0#16 → result = .done (.branch false true t) s) ∧
        (pred = 0#16 → result = .done (.branch false pushes next) s)) ∧
      (op.toNat = 9 ∨ op.toNat = 11 → (pred = 0#16 → result = .done (.branch false true t) s) ∧
        (pred ≠ 0#16 → result = .done (.branch false pushes next) s)) ∧
      (op.toNat = 12 → result = .done (.branch false false (if pred ≠ 0#16 then t else f)) s) ∧
      (op.toNat = 13 → result = .done (.branch false false (if pred = 0#16 then t else f)) s) ∧
      (op.toNat = 14 → result = .done (.branch false true (if pred ≠ 0#16 then t else f)) s) ∧
      (op.toNat = 15 → result = .done (.branch false true (if pred = 0#16 then t else f)) s) ∧
      (op.toNat = 16 → result = .done (.branch true false 0#16) s) ∧
      (17 ≤ op.toNat → result = .raised (.illegalJumpOperation op) s))

/-- 47_functional_units.md R338, R339: complete operations of the memory controllers and of SYS, and what the integrator does
with a result of SYS. R338 has a Store of MEM.code for the image load only: that it is accepted until the first step and waits
from then on is the model's reading (log 25; `started`: log 8). -/
def Obligations.StorageUnitOperations : Prop :=
  (∀ (u : UnitId) (code : BitVec 8) (s : State),
    unitAccepts u code s = true ↔ (u = .memCode → code.getLsbD 0 = true → s.started = false)) ∧
  ∀ (s : State) (a v : Word) (x : BitVec 32),
    (s.unit .memCode = .awaiting →
      (s.config.codeSize ≤ a.toNat →
        operate .memCode 0#8 [a.setWidth 32, x] s = .raised (.addressOutOfRange .code a) s ∧
        (s.started = false → operate .memCode 1#8 [a.setWidth 32, x] s = .raised (.addressOutOfRange .code a) s)) ∧
      (a.toNat < s.config.codeSize →
        operate .memCode 0#8 [a.setWidth 32, x] s = .done (.cell (s.code.readCell a.toNat)) s ∧
        (s.started = false → operate .memCode 1#8 [a.setWidth 32, x] s =
          .done (.cell x) (s.setMem .code (s.code.writeCell a.toNat x)))) ∧
      (s.started = true → unitEvent .memCode (.operation 1#8) s = .waits)) ∧
    (s.unit .memData = .awaiting →
      (∀ w t, memRead a s = .done w t → operate .memData 0#8 [a.setWidth 32, x] s = .done (.word w) t) ∧
      (∀ e t, memRead a s = .raised e t → operate .memData 0#8 [a.setWidth 32, x] s = .raised e t) ∧
      (∀ why, memRead a s = .hung why → operate .memData 0#8 [a.setWidth 32, x] s = .hung why) ∧
      (∀ t, memWrite a v s = .done () t →
        operate .memData 1#8 [a.setWidth 32, v.setWidth 32] s = .done (.word v) t) ∧
      (∀ e t, memWrite a v s = .raised e t → operate .memData 1#8 [a.setWidth 32, v.setWidth 32] s = .raised e t) ∧
      (∀ why, memWrite a v s = .hung why → operate .memData 1#8 [a.setWidth 32, v.setWidth 32] s = .hung why)) ∧
    (∀ u seg, (u = .memStack ∧ seg = .stack) ∨ (u = .memCall ∧ seg = .call) → s.unit u = .awaiting →
      (s.size seg ≤ a.toNat →
        operate u 0#8 [a.setWidth 32, x] s = .raised (.addressOutOfRange seg a) s ∧
        operate u 1#8 [a.setWidth 32, x] s = .raised (.addressOutOfRange seg a) s) ∧
      (a.toNat < s.size seg →
        operate u 0#8 [a.setWidth 32, x] s = .done (.word ((s.mem seg).readWord a.toNat)) s ∧
        operate u 1#8 [a.setWidth 32, v.setWidth 32] s =
          .done (.word v) (s.setMem seg ((s.mem seg).writeWord a.toNat v)))) ∧
    (s.unit .sys = .awaiting → ∀ (imm b c : Word) (y : BitVec 32),
      operate .sys 0#8 [x, x, x, y] s = .done (.sys true false 0#32) s ∧
      operate .sys 1#8 [imm.setWidth 32, x, x, y] s = .raised (.panic imm) s ∧
      operate .sys 2#8 [x, b.setWidth 32, c.setWidth 32, 1#32] s =
        .done (.sys false true (BitVec.ofNat 32 (b.toNat % 256))) s ∧
      operate .sys 2#8 [x, b.setWidth 32, c.setWidth 32, 0#32] s =
        .done (.sys false true (BitVec.ofNat 32 (65536 * c.toNat + b.toNat))) s ∧
      ∀ sel : BitVec 8, systemCallTable s.config sel = .invalid → operate .sys sel [x, x, x, y] s = .raised (.invalidSystemCommand sel) s) ∧
    composeSystem (.sys true false 0#32) s = .done () { s with halted := true } ∧
    (∀ c : BitVec 32, composeSystem (.sys false true c) s = .done () { s with out := s.out ++ [c] })

/-- 47_functional_units.md R352: the composition of the units leaves after every instruction exactly the state `step` leaves;
the units wait again, or are idle once the core has halted (R353), and it stops only where `step` does. -/
def Obligations.CompositionRefinesStep : Prop :=
  ∀ s : State, s.units = Units.all .awaiting → s.running = true →
    composedStep s = mapNext (fun t => if t.halted then { t with units := Units.all .created } else t) (step s)
end

