-- ==== Sys2Proof/Laws/State.lean ====
section
/-! SUPPORT. The small lemmas of `State`: one per field per update, true by `rfl`, so that no later proof unfolds a record
update. -/

namespace Sys2Proof.Machine

@[simp] theorem State.setReg_config (s : State) (i : RegIdx) (v : Word) : (s.setReg i v).config = s.config := rfl
@[simp] theorem State.setReg_regs (s : State) (i : RegIdx) (v : Word) : (s.setReg i v).regs = s.regs.set i.toNat v i.isLt := rfl
@[simp] theorem State.setReg_code (s : State) (i : RegIdx) (v : Word) : (s.setReg i v).code = s.code := rfl
@[simp] theorem State.setReg_data (s : State) (i : RegIdx) (v : Word) : (s.setReg i v).data = s.data := rfl
@[simp] theorem State.setReg_stack (s : State) (i : RegIdx) (v : Word) : (s.setReg i v).stack = s.stack := rfl
@[simp] theorem State.setReg_call (s : State) (i : RegIdx) (v : Word) : (s.setReg i v).call = s.call := rfl
@[simp] theorem State.setReg_advancePc (s : State) (i : RegIdx) (v : Word) : (s.setReg i v).advancePc = s.advancePc := rfl
@[simp] theorem State.setReg_halted (s : State) (i : RegIdx) (v : Word) : (s.setReg i v).halted = s.halted := rfl
@[simp] theorem State.setReg_error (s : State) (i : RegIdx) (v : Word) : (s.setReg i v).error = s.error := rfl
@[simp] theorem State.setReg_out (s : State) (i : RegIdx) (v : Word) : (s.setReg i v).out = s.out := rfl
@[simp] theorem State.setReg_io (s : State) (i : RegIdx) (v : Word) : (s.setReg i v).io = s.io := rfl
@[simp] theorem State.setReg_started (s : State) (i : RegIdx) (v : Word) : (s.setReg i v).started = s.started := rfl
@[simp] theorem State.setReg_lifecycle (s : State) (i : RegIdx) (v : Word) : (s.setReg i v).lifecycle = s.lifecycle := rfl
@[simp] theorem State.setReg_units (s : State) (i : RegIdx) (v : Word) : (s.setReg i v).units = s.units := rfl

@[simp] theorem State.takeError_config (s : State) (e : Error) : (s.takeError e).config = s.config := rfl
@[simp] theorem State.takeError_regs (s : State) (e : Error) : (s.takeError e).regs = s.regs := rfl
@[simp] theorem State.takeError_code (s : State) (e : Error) : (s.takeError e).code = s.code := rfl
@[simp] theorem State.takeError_data (s : State) (e : Error) : (s.takeError e).data = s.data := rfl
@[simp] theorem State.takeError_stack (s : State) (e : Error) : (s.takeError e).stack = s.stack := rfl
@[simp] theorem State.takeError_call (s : State) (e : Error) : (s.takeError e).call = s.call := rfl
@[simp] theorem State.takeError_advancePc (s : State) (e : Error) : (s.takeError e).advancePc = true := rfl
@[simp] theorem State.takeError_halted (s : State) (e : Error) : (s.takeError e).halted = true := rfl
@[simp] theorem State.takeError_error (s : State) (e : Error) : (s.takeError e).error = some e := rfl
@[simp] theorem State.takeError_out (s : State) (e : Error) : (s.takeError e).out = s.out := rfl
@[simp] theorem State.takeError_io (s : State) (e : Error) : (s.takeError e).io = s.io := rfl
@[simp] theorem State.takeError_started (s : State) (e : Error) : (s.takeError e).started = s.started := rfl
@[simp] theorem State.takeError_lifecycle (s : State) (e : Error) : (s.takeError e).lifecycle = s.lifecycle := rfl
@[simp] theorem State.takeError_units (s : State) (e : Error) : (s.takeError e).units = s.units := rfl
@[simp] theorem State.takeError_reg (s : State) (e : Error) (r : RegIdx) : (s.takeError e).reg r = s.reg r := rfl

@[simp] theorem State.emit_config (s : State) (c : BitVec 32) : (s.emit c).config = s.config := rfl
@[simp] theorem State.emit_regs (s : State) (c : BitVec 32) : (s.emit c).regs = s.regs := rfl
@[simp] theorem State.emit_code (s : State) (c : BitVec 32) : (s.emit c).code = s.code := rfl
@[simp] theorem State.emit_data (s : State) (c : BitVec 32) : (s.emit c).data = s.data := rfl
@[simp] theorem State.emit_stack (s : State) (c : BitVec 32) : (s.emit c).stack = s.stack := rfl
@[simp] theorem State.emit_call (s : State) (c : BitVec 32) : (s.emit c).call = s.call := rfl
@[simp] theorem State.emit_advancePc (s : State) (c : BitVec 32) : (s.emit c).advancePc = s.advancePc := rfl
@[simp] theorem State.emit_halted (s : State) (c : BitVec 32) : (s.emit c).halted = s.halted := rfl
@[simp] theorem State.emit_error (s : State) (c : BitVec 32) : (s.emit c).error = s.error := rfl
@[simp] theorem State.emit_out (s : State) (c : BitVec 32) : (s.emit c).out = s.out ++ [c] := rfl
@[simp] theorem State.emit_io (s : State) (c : BitVec 32) : (s.emit c).io = s.io := rfl
@[simp] theorem State.emit_started (s : State) (c : BitVec 32) : (s.emit c).started = s.started := rfl
@[simp] theorem State.emit_lifecycle (s : State) (c : BitVec 32) : (s.emit c).lifecycle = s.lifecycle := rfl
@[simp] theorem State.emit_units (s : State) (c : BitVec 32) : (s.emit c).units = s.units := rfl
@[simp] theorem State.emit_reg (s : State) (c : BitVec 32) (r : RegIdx) : (s.emit c).reg r = s.reg r := rfl

@[simp] theorem State.jumpTo_config (s : State) (a : Word) : (s.jumpTo a).config = s.config := rfl
@[simp] theorem State.jumpTo_regs (s : State) (a : Word) : (s.jumpTo a).regs = (s.setReg ipIdx a).regs := rfl
@[simp] theorem State.jumpTo_code (s : State) (a : Word) : (s.jumpTo a).code = s.code := rfl
@[simp] theorem State.jumpTo_data (s : State) (a : Word) : (s.jumpTo a).data = s.data := rfl
@[simp] theorem State.jumpTo_stack (s : State) (a : Word) : (s.jumpTo a).stack = s.stack := rfl
@[simp] theorem State.jumpTo_call (s : State) (a : Word) : (s.jumpTo a).call = s.call := rfl
@[simp] theorem State.jumpTo_advancePc (s : State) (a : Word) : (s.jumpTo a).advancePc = false := rfl
@[simp] theorem State.jumpTo_halted (s : State) (a : Word) : (s.jumpTo a).halted = s.halted := rfl
@[simp] theorem State.jumpTo_error (s : State) (a : Word) : (s.jumpTo a).error = s.error := rfl
@[simp] theorem State.jumpTo_out (s : State) (a : Word) : (s.jumpTo a).out = s.out := rfl
@[simp] theorem State.jumpTo_io (s : State) (a : Word) : (s.jumpTo a).io = s.io := rfl
@[simp] theorem State.jumpTo_started (s : State) (a : Word) : (s.jumpTo a).started = s.started := rfl
@[simp] theorem State.jumpTo_lifecycle (s : State) (a : Word) : (s.jumpTo a).lifecycle = s.lifecycle := rfl
@[simp] theorem State.jumpTo_units (s : State) (a : Word) : (s.jumpTo a).units = s.units := rfl

@[simp] theorem State.beginStep_config (s : State) : s.beginStep.config = s.config := rfl
@[simp] theorem State.beginStep_regs (s : State) : s.beginStep.regs = s.regs := rfl
@[simp] theorem State.beginStep_code (s : State) : s.beginStep.code = s.code := rfl
@[simp] theorem State.beginStep_data (s : State) : s.beginStep.data = s.data := rfl
@[simp] theorem State.beginStep_stack (s : State) : s.beginStep.stack = s.stack := rfl
@[simp] theorem State.beginStep_call (s : State) : s.beginStep.call = s.call := rfl
@[simp] theorem State.beginStep_advancePc (s : State) : s.beginStep.advancePc = true := rfl
@[simp] theorem State.beginStep_halted (s : State) : s.beginStep.halted = s.halted := rfl
@[simp] theorem State.beginStep_error (s : State) : s.beginStep.error = s.error := rfl
@[simp] theorem State.beginStep_out (s : State) : s.beginStep.out = s.out := rfl
@[simp] theorem State.beginStep_io (s : State) : s.beginStep.io = s.io := rfl
@[simp] theorem State.beginStep_started (s : State) : s.beginStep.started = true := rfl
@[simp] theorem State.beginStep_lifecycle (s : State) : s.beginStep.lifecycle = s.lifecycle := rfl
@[simp] theorem State.beginStep_units (s : State) : s.beginStep.units = s.units := rfl
@[simp] theorem State.beginStep_reg (s : State) (r : RegIdx) : s.beginStep.reg r = s.reg r := rfl

@[simp] theorem State.setMem_code_config (s : State) (m : Memory) : (s.setMem .code m).config = s.config := rfl
@[simp] theorem State.setMem_code_regs (s : State) (m : Memory) : (s.setMem .code m).regs = s.regs := rfl
@[simp] theorem State.setMem_code_code (s : State) (m : Memory) : (s.setMem .code m).code = m := rfl
@[simp] theorem State.setMem_code_data (s : State) (m : Memory) : (s.setMem .code m).data = s.data := rfl
@[simp] theorem State.setMem_code_stack (s : State) (m : Memory) : (s.setMem .code m).stack = s.stack := rfl
@[simp] theorem State.setMem_code_call (s : State) (m : Memory) : (s.setMem .code m).call = s.call := rfl
@[simp] theorem State.setMem_code_advancePc (s : State) (m : Memory) : (s.setMem .code m).advancePc = s.advancePc := rfl
@[simp] theorem State.setMem_code_halted (s : State) (m : Memory) : (s.setMem .code m).halted = s.halted := rfl
@[simp] theorem State.setMem_code_error (s : State) (m : Memory) : (s.setMem .code m).error = s.error := rfl
@[simp] theorem State.setMem_code_out (s : State) (m : Memory) : (s.setMem .code m).out = s.out := rfl
@[simp] theorem State.setMem_code_io (s : State) (m : Memory) : (s.setMem .code m).io = s.io := rfl
@[simp] theorem State.setMem_code_started (s : State) (m : Memory) : (s.setMem .code m).started = s.started := rfl
@[simp] theorem State.setMem_code_lifecycle (s : State) (m : Memory) : (s.setMem .code m).lifecycle = s.lifecycle := rfl
@[simp] theorem State.setMem_code_units (s : State) (m : Memory) : (s.setMem .code m).units = s.units := rfl
@[simp] theorem State.setMem_code_reg (s : State) (m : Memory) (r : RegIdx) : (s.setMem .code m).reg r = s.reg r := rfl

@[simp] theorem State.setMem_data_config (s : State) (m : Memory) : (s.setMem .data m).config = s.config := rfl
@[simp] theorem State.setMem_data_regs (s : State) (m : Memory) : (s.setMem .data m).regs = s.regs := rfl
@[simp] theorem State.setMem_data_code (s : State) (m : Memory) : (s.setMem .data m).code = s.code := rfl
@[simp] theorem State.setMem_data_data (s : State) (m : Memory) : (s.setMem .data m).data = m := rfl
@[simp] theorem State.setMem_data_stack (s : State) (m : Memory) : (s.setMem .data m).stack = s.stack := rfl
@[simp] theorem State.setMem_data_call (s : State) (m : Memory) : (s.setMem .data m).call = s.call := rfl
@[simp] theorem State.setMem_data_advancePc (s : State) (m : Memory) : (s.setMem .data m).advancePc = s.advancePc := rfl
@[simp] theorem State.setMem_data_halted (s : State) (m : Memory) : (s.setMem .data m).halted = s.halted := rfl
@[simp] theorem State.setMem_data_error (s : State) (m : Memory) : (s.setMem .data m).error = s.error := rfl
@[simp] theorem State.setMem_data_out (s : State) (m : Memory) : (s.setMem .data m).out = s.out := rfl
@[simp] theorem State.setMem_data_io (s : State) (m : Memory) : (s.setMem .data m).io = s.io := rfl
@[simp] theorem State.setMem_data_started (s : State) (m : Memory) : (s.setMem .data m).started = s.started := rfl
@[simp] theorem State.setMem_data_lifecycle (s : State) (m : Memory) : (s.setMem .data m).lifecycle = s.lifecycle := rfl
@[simp] theorem State.setMem_data_units (s : State) (m : Memory) : (s.setMem .data m).units = s.units := rfl
@[simp] theorem State.setMem_data_reg (s : State) (m : Memory) (r : RegIdx) : (s.setMem .data m).reg r = s.reg r := rfl

@[simp] theorem State.setMem_stack_config (s : State) (m : Memory) : (s.setMem .stack m).config = s.config := rfl
@[simp] theorem State.setMem_stack_regs (s : State) (m : Memory) : (s.setMem .stack m).regs = s.regs := rfl
@[simp] theorem State.setMem_stack_code (s : State) (m : Memory) : (s.setMem .stack m).code = s.code := rfl
@[simp] theorem State.setMem_stack_data (s : State) (m : Memory) : (s.setMem .stack m).data = s.data := rfl
@[simp] theorem State.setMem_stack_stack (s : State) (m : Memory) : (s.setMem .stack m).stack = m := rfl
@[simp] theorem State.setMem_stack_call (s : State) (m : Memory) : (s.setMem .stack m).call = s.call := rfl
@[simp] theorem State.setMem_stack_advancePc (s : State) (m : Memory) : (s.setMem .stack m).advancePc = s.advancePc := rfl
@[simp] theorem State.setMem_stack_halted (s : State) (m : Memory) : (s.setMem .stack m).halted = s.halted := rfl
@[simp] theorem State.setMem_stack_error (s : State) (m : Memory) : (s.setMem .stack m).error = s.error := rfl
@[simp] theorem State.setMem_stack_out (s : State) (m : Memory) : (s.setMem .stack m).out = s.out := rfl
@[simp] theorem State.setMem_stack_io (s : State) (m : Memory) : (s.setMem .stack m).io = s.io := rfl
@[simp] theorem State.setMem_stack_started (s : State) (m : Memory) : (s.setMem .stack m).started = s.started := rfl
@[simp] theorem State.setMem_stack_lifecycle (s : State) (m : Memory) : (s.setMem .stack m).lifecycle = s.lifecycle := rfl
@[simp] theorem State.setMem_stack_units (s : State) (m : Memory) : (s.setMem .stack m).units = s.units := rfl
@[simp] theorem State.setMem_stack_reg (s : State) (m : Memory) (r : RegIdx) : (s.setMem .stack m).reg r = s.reg r := rfl

@[simp] theorem State.setMem_call_config (s : State) (m : Memory) : (s.setMem .call m).config = s.config := rfl
@[simp] theorem State.setMem_call_regs (s : State) (m : Memory) : (s.setMem .call m).regs = s.regs := rfl
@[simp] theorem State.setMem_call_code (s : State) (m : Memory) : (s.setMem .call m).code = s.code := rfl
@[simp] theorem State.setMem_call_data (s : State) (m : Memory) : (s.setMem .call m).data = s.data := rfl
@[simp] theorem State.setMem_call_stack (s : State) (m : Memory) : (s.setMem .call m).stack = s.stack := rfl
@[simp] theorem State.setMem_call_call (s : State) (m : Memory) : (s.setMem .call m).call = m := rfl
@[simp] theorem State.setMem_call_advancePc (s : State) (m : Memory) : (s.setMem .call m).advancePc = s.advancePc := rfl
@[simp] theorem State.setMem_call_halted (s : State) (m : Memory) : (s.setMem .call m).halted = s.halted := rfl
@[simp] theorem State.setMem_call_error (s : State) (m : Memory) : (s.setMem .call m).error = s.error := rfl
@[simp] theorem State.setMem_call_out (s : State) (m : Memory) : (s.setMem .call m).out = s.out := rfl
@[simp] theorem State.setMem_call_io (s : State) (m : Memory) : (s.setMem .call m).io = s.io := rfl
@[simp] theorem State.setMem_call_started (s : State) (m : Memory) : (s.setMem .call m).started = s.started := rfl
@[simp] theorem State.setMem_call_lifecycle (s : State) (m : Memory) : (s.setMem .call m).lifecycle = s.lifecycle := rfl
@[simp] theorem State.setMem_call_units (s : State) (m : Memory) : (s.setMem .call m).units = s.units := rfl
@[simp] theorem State.setMem_call_reg (s : State) (m : Memory) (r : RegIdx) : (s.setMem .call m).reg r = s.reg r := rfl

@[simp] theorem State.setUnit_config (s : State) (u : UnitId) (x : UnitState) : (s.setUnit u x).config = s.config := rfl
@[simp] theorem State.setUnit_regs (s : State) (u : UnitId) (x : UnitState) : (s.setUnit u x).regs = s.regs := rfl
@[simp] theorem State.setUnit_code (s : State) (u : UnitId) (x : UnitState) : (s.setUnit u x).code = s.code := rfl
@[simp] theorem State.setUnit_data (s : State) (u : UnitId) (x : UnitState) : (s.setUnit u x).data = s.data := rfl
@[simp] theorem State.setUnit_stack (s : State) (u : UnitId) (x : UnitState) : (s.setUnit u x).stack = s.stack := rfl
@[simp] theorem State.setUnit_call (s : State) (u : UnitId) (x : UnitState) : (s.setUnit u x).call = s.call := rfl
@[simp] theorem State.setUnit_advancePc (s : State) (u : UnitId) (x : UnitState) : (s.setUnit u x).advancePc = s.advancePc := rfl
@[simp] theorem State.setUnit_halted (s : State) (u : UnitId) (x : UnitState) : (s.setUnit u x).halted = s.halted := rfl
@[simp] theorem State.setUnit_error (s : State) (u : UnitId) (x : UnitState) : (s.setUnit u x).error = s.error := rfl
@[simp] theorem State.setUnit_out (s : State) (u : UnitId) (x : UnitState) : (s.setUnit u x).out = s.out := rfl
@[simp] theorem State.setUnit_io (s : State) (u : UnitId) (x : UnitState) : (s.setUnit u x).io = s.io := rfl
@[simp] theorem State.setUnit_started (s : State) (u : UnitId) (x : UnitState) : (s.setUnit u x).started = s.started := rfl
@[simp] theorem State.setUnit_lifecycle (s : State) (u : UnitId) (x : UnitState) : (s.setUnit u x).lifecycle = s.lifecycle := rfl
@[simp] theorem State.setUnit_units (s : State) (u : UnitId) (x : UnitState) : (s.setUnit u x).units = s.units.set u x := rfl
@[simp] theorem State.setUnit_reg (s : State) (u : UnitId) (x : UnitState) (r : RegIdx) : (s.setUnit u x).reg r = s.reg r := rfl

@[simp] theorem State.withIo_reg (s : State) (io : List IoAccess) (r : RegIdx) : State.reg { s with io := io } r = s.reg r := rfl

@[simp] theorem State.withAdvancePc_reg (s : State) (b : Bool) (r : RegIdx) :
    State.reg { s with advancePc := b } r = s.reg r := rfl

@[simp] theorem State.withHalted_reg (s : State) (b : Bool) (r : RegIdx) : State.reg { s with halted := b } r = s.reg r := rfl

@[simp] theorem State.jumpTo_reg (s : State) (a : Word) (r : RegIdx) : (s.jumpTo a).reg r = (s.setReg ipIdx a).reg r := rfl

@[simp] theorem State.mem_code (s : State) : s.mem .code = s.code := rfl
@[simp] theorem State.mem_data (s : State) : s.mem .data = s.data := rfl
@[simp] theorem State.mem_stack (s : State) : s.mem .stack = s.stack := rfl
@[simp] theorem State.mem_call (s : State) : s.mem .call = s.call := rfl

@[simp] theorem State.size_code (s : State) : s.size .code = s.config.codeSize := rfl
@[simp] theorem State.size_data (s : State) : s.size .data = s.config.dataSize := rfl
@[simp] theorem State.size_stack (s : State) : s.size .stack = s.config.stackSize := rfl
@[simp] theorem State.size_call (s : State) : s.size .call = s.config.callSize := rfl

/-- Two states are equal when their fields are. -/
theorem State.eq_of_fields {s t : State} (hconfig : s.config = t.config) (hregs : s.regs = t.regs) (hcode : s.code = t.code)
    (hdata : s.data = t.data) (hstack : s.stack = t.stack) (hcall : s.call = t.call)
    (hadvance : s.advancePc = t.advancePc) (hhalted : s.halted = t.halted) (herror : s.error = t.error)
    (hout : s.out = t.out) (hio : s.io = t.io) (hstarted : s.started = t.started)
    (hlifecycle : s.lifecycle = t.lifecycle) (hunits : s.units = t.units) : s = t := by
  cases s; cases t; simp_all

/-- Writing back the units a state already has changes nothing. -/
@[simp] theorem State.setUnit_unit (s : State) (u : UnitId) : s.setUnit u (s.unit u) = s := by
  cases u <;> rfl

/-- The unit just replaced. -/
@[simp] theorem State.unit_setUnit_self (s : State) (u : UnitId) (x : UnitState) : (s.setUnit u x).unit u = x := by
  cases u <;> rfl

/-- The last replacement of a unit is the one that counts. -/
@[simp] theorem State.setUnit_setUnit (s : State) (u : UnitId) (x y : UnitState) :
    (s.setUnit u x).setUnit u y = s.setUnit u y := by
  cases u <;> rfl

/-- A unit replaced leaves the others. -/
theorem State.unit_setUnit_of_ne (s : State) {u w : UnitId} (h : w ≠ u) (x : UnitState) :
    (s.setUnit u x).unit w = s.unit w := by
  cases u <;> cases w <;> first | rfl | exact absurd rfl h

end Sys2Proof.Machine
end

