-- ==== Sys2Proof/Laws/Memory.lean ====
section
/-! SUPPORT. The laws of a memory: what a write changes, what it leaves, and that every operation keeps the canonical form
and the bounds. -/

namespace Sys2Proof.Machine

@[simp] theorem Memory.readByte_nil (a : Nat) : Memory.readByte [] a = Memory.unlisted := rfl

/-- Filtering out address `a` leaves every other address as it reads. -/
theorem Memory.readByte_filter_of_ne {a b : Nat} (h : b ≠ a) :
    ∀ m : Memory, Memory.readByte (m.filter (fun c => c.1 != a)) b = m.readByte b
  | [] => rfl
  | (k, c) :: m => by
    have ih := Memory.readByte_filter_of_ne h m
    by_cases hk : k = a
    · subst hk; simp [Memory.readByte, ih, Ne.symm h]
    · simp [Memory.readByte, hk, ih]

/-- Nothing is listed at an address that has been filtered out. -/
theorem Memory.readByte_filter_self (a : Nat) :
    ∀ m : Memory, Memory.readByte (m.filter (fun c => c.1 != a)) a = Memory.unlisted
  | [] => rfl
  | (k, c) :: m => by
    have ih := Memory.readByte_filter_self a m
    by_cases hk : k = a
    · subst hk; simpa using ih
    · simp [Memory.readByte, hk, ih]

/-- Every address an insertion leaves. -/
theorem Memory.readByte_insertByte_of_ne {a b : Nat} (h : b ≠ a) (v : Byte) :
    ∀ m : Memory, (Memory.insertByte a v m).readByte b = m.readByte b
  | [] => by simp [Memory.insertByte, Memory.readByte, Ne.symm h]
  | (k, c) :: m => by
    have ih := Memory.readByte_insertByte_of_ne h v m
    by_cases hk : k < a
    · simp [Memory.insertByte, hk, Memory.readByte, ih]
    · simp [Memory.insertByte, hk, Memory.readByte, Ne.symm h]

/-- The byte just inserted, where the address was not listed before. -/
theorem Memory.readByte_insertByte_self (a : Nat) (v : Byte) :
    ∀ m : Memory, (∀ c ∈ m, c.1 ≠ a) → (Memory.insertByte a v m).readByte a = v
  | [], _ => by simp [Memory.insertByte, Memory.readByte]
  | (k, c) :: m, h => by
    have hk : k ≠ a := h (k, c) (by simp)
    have ih := Memory.readByte_insertByte_self a v m (fun c hc => h c (by simp [hc]))
    by_cases hlt : k < a
    · simp [Memory.insertByte, hlt, Memory.readByte, hk, ih]
    · simp [Memory.insertByte, hlt, Memory.readByte]

theorem Memory.ne_of_mem_filter {a : Nat} {m : Memory} {c : Host.Cell} (h : c ∈ m.filter (fun c => c.1 != a)) : c.1 ≠ a := by
  simpa using (List.mem_filter.mp h).2

/-- A byte read after it was written. -/
@[simp] theorem Memory.readByte_writeByte_self (m : Memory) (a : Nat) (v : Byte) : (m.writeByte a v).readByte a = v := by
  unfold Memory.writeByte
  split
  · next h => rw [Memory.readByte_filter_self, h]
  · exact Memory.readByte_insertByte_self a v _ (fun c hc => Memory.ne_of_mem_filter hc)

/-- A byte a write leaves. -/
theorem Memory.readByte_writeByte_of_ne {a b : Nat} (h : b ≠ a) (m : Memory) (v : Byte) :
    (m.writeByte a v).readByte b = m.readByte b := by
  unfold Memory.writeByte
  split
  · exact Memory.readByte_filter_of_ne h m
  · rw [Memory.readByte_insertByte_of_ne h, Memory.readByte_filter_of_ne h]

/-- What a written memory can list: the byte written, and what was listed before. -/
theorem Memory.mem_insertByte {a : Nat} {v : Byte} {c : Host.Cell} :
    ∀ {m : Memory}, c ∈ Memory.insertByte a v m → c = (a, v) ∨ c ∈ m
  | [], h => by simpa [Memory.insertByte] using h
  | (k, b) :: m, h => by
    by_cases hk : k < a
    · simp only [Memory.insertByte, hk, if_true, List.mem_cons] at h ⊢
      rcases h with h | h
      · exact .inr (.inl h)
      · rcases Memory.mem_insertByte h with h | h
        · exact .inl h
        · exact .inr (.inr h)
    · simpa [Memory.insertByte, hk] using h

/-- An insertion keeps addresses rising, where the address was not listed before. -/
theorem Memory.pairwise_insertByte (a : Nat) (v : Byte) :
    ∀ m : Memory, m.Pairwise (fun x y => x.1 < y.1) → (∀ c ∈ m, c.1 ≠ a) →
      (Memory.insertByte a v m).Pairwise (fun x y => x.1 < y.1)
  | [], _, _ => by simp [Memory.insertByte]
  | (k, b) :: m, hp, hne => by
    have hp' := List.pairwise_cons.mp hp
    have ih := Memory.pairwise_insertByte a v m hp'.2 (fun c hc => hne c (by simp [hc]))
    by_cases hk : k < a
    · simp only [Memory.insertByte, hk, if_true]
      refine List.pairwise_cons.mpr ⟨fun c hc => ?_, ih⟩
      rcases Memory.mem_insertByte hc with rfl | hc
      · exact hk
      · exact hp'.1 c hc
    · have hka : a < k := by
        have : k ≠ a := hne (k, b) (by simp)
        omega
      simp only [Memory.insertByte, hk, if_false]
      refine List.pairwise_cons.mpr ⟨fun c hc => ?_, hp⟩
      rcases List.mem_cons.mp hc with rfl | hc
      · exact hka
      · exact Nat.lt_trans hka (hp'.1 c hc)

/-- Writing a byte keeps the canonical form. -/
theorem Memory.wf_writeByte {m : Memory} (h : m.Wf) (a : Nat) (v : Byte) : (m.writeByte a v).Wf := by
  have hf : Memory.Wf (m.filter (fun c => c.1 != a)) :=
    ⟨h.1.filter _, fun c hc => h.2 c (List.mem_filter.mp hc).1⟩
  unfold Memory.writeByte
  split
  · exact hf
  · next hv =>
    refine ⟨Memory.pairwise_insertByte a v _ hf.1 (fun c hc => Memory.ne_of_mem_filter hc), fun c hc => ?_⟩
    rcases Memory.mem_insertByte hc with rfl | hc
    · exact hv
    · exact hf.2 c hc

/-- Writing a byte below a bound keeps the bound. -/
theorem Memory.below_writeByte {m : Memory} {n : Nat} (h : m.Below n) {a : Nat} (ha : a < n) (v : Byte) :
    (m.writeByte a v).Below n := by
  intro c hc
  unfold Memory.writeByte at hc
  split at hc
  · exact h c (List.mem_filter.mp hc).1
  · rcases Memory.mem_insertByte hc with rfl | hc
    · exact ha
    · exact h c (List.mem_filter.mp hc).1

/-- Writing a 16-bit cell keeps the canonical form. -/
theorem Memory.wf_writeWord {m : Memory} (h : m.Wf) (a : Nat) (v : Word) : (m.writeWord a v).Wf :=
  Memory.wf_writeByte (Memory.wf_writeByte h _ _) _ _

/-- Writing a 16-bit cell of a segment keeps the segment's bound. -/
theorem Memory.below_writeWord {m : Memory} {n : Nat} (h : m.Below (2 * n)) {a : Nat} (ha : a < n) (v : Word) :
    (m.writeWord a v).Below (2 * n) :=
  Memory.below_writeByte (Memory.below_writeByte h (by omega) _) (by omega) _

/-- Writing a 32-bit cell keeps the canonical form. -/
theorem Memory.wf_writeCell {m : Memory} (h : m.Wf) (a : Nat) (w : Cell32) : (m.writeCell a w).Wf :=
  Memory.wf_writeByte (Memory.wf_writeByte (Memory.wf_writeByte (Memory.wf_writeByte h _ _) _ _) _ _) _ _

/-- Writing a 32-bit cell of the code segment keeps its bound. -/
theorem Memory.below_writeCell {m : Memory} {n : Nat} (h : m.Below (4 * n)) {a : Nat} (ha : a < n) (w : Cell32) :
    (m.writeCell a w).Below (4 * n) :=
  Memory.below_writeByte (Memory.below_writeByte (Memory.below_writeByte (Memory.below_writeByte h (by omega) _)
    (by omega) _) (by omega) _) (by omega) _

/-- Every listed address of an image part is at or after its start. -/
theorem Memory.le_of_mem_ofBytes {c : Host.Cell} :
    ∀ {bytes : List Byte} {start : Nat}, c ∈ Memory.ofBytes start bytes → start ≤ c.1
  | [], start, h => by simp [Memory.ofBytes] at h
  | b :: rest, start, h => by
    unfold Memory.ofBytes at h
    split at h
    · exact Nat.le_of_succ_le (Memory.le_of_mem_ofBytes h)
    · rcases List.mem_cons.mp h with rfl | h
      · exact Nat.le_refl _
      · exact Nat.le_of_succ_le (Memory.le_of_mem_ofBytes h)

/-- A loaded part is in canonical form. -/
theorem Memory.wf_ofBytes : ∀ (bytes : List Byte) (start : Nat), (Memory.ofBytes start bytes).Wf
  | [], _ => by simp [Memory.ofBytes, Memory.Wf]
  | b :: rest, start => by
    have ih := Memory.wf_ofBytes rest (start + 1)
    unfold Memory.ofBytes
    split
    · exact ih
    · next hb =>
      refine ⟨List.pairwise_cons.mpr ⟨fun c hc => Memory.le_of_mem_ofBytes hc, ih.1⟩, fun c hc => ?_⟩
      rcases List.mem_cons.mp hc with rfl | hc
      · exact hb
      · exact ih.2 c hc

/-- A loaded part lists nothing past its bytes. -/
theorem Memory.below_ofBytes : ∀ (bytes : List Byte) (start : Nat), (Memory.ofBytes start bytes).Below (start + bytes.length)
  | [], _ => by simp [Memory.ofBytes]
  | b :: rest, start => by
    intro c hc
    have ih := Memory.below_ofBytes rest (start + 1)
    unfold Memory.ofBytes at hc
    simp only [List.length_cons]
    split at hc
    · have := ih c hc; omega
    · rcases List.mem_cons.mp hc with rfl | hc
      · simp
      · have := ih c hc; omega

/-- The two bytes of a Word put together again. -/
@[simp] theorem highByte_append_lowByte (v : Word) : (highByte v ++ lowByte v : BitVec 16) = v := by
  apply BitVec.eq_of_getLsbD_eq
  intro i hi
  simp only [highByte, lowByte, BitVec.getLsbD_append, BitVec.getLsbD_extractLsb']
  by_cases h : i < 8
  · simp [h]
  · have : i - 8 < 8 := by omega
    simp [h, this, show 8 + (i - 8) = i by omega]

/-- A 16-bit cell read after it was written. -/
@[simp] theorem Memory.readWord_writeWord_self (m : Memory) (a : Nat) (v : Word) : (m.writeWord a v).readWord a = v := by
  unfold Memory.readWord Memory.writeWord
  rw [Memory.readByte_writeByte_self, Memory.readByte_writeByte_of_ne (by omega), Memory.readByte_writeByte_self]
  exact highByte_append_lowByte v

/-- A byte outside the two bytes of a written 16-bit cell. -/
theorem Memory.readByte_writeWord_of_ne {a b : Nat} (h0 : b ≠ 2 * a) (h1 : b ≠ 2 * a + 1) (m : Memory) (v : Word) :
    (m.writeWord a v).readByte b = m.readByte b := by
  unfold Memory.writeWord
  rw [Memory.readByte_writeByte_of_ne h1, Memory.readByte_writeByte_of_ne h0]

/-- A 16-bit cell that a write of another leaves. -/
theorem Memory.readWord_writeWord_of_ne {a b : Nat} (h : b ≠ a) (m : Memory) (v : Word) :
    (m.writeWord a v).readWord b = m.readWord b := by
  unfold Memory.readWord
  rw [Memory.readByte_writeWord_of_ne (by omega) (by omega), Memory.readByte_writeWord_of_ne (by omega) (by omega)]

end Sys2Proof.Machine
end

