-- ==== Sys2Proof/Laws/Ops.lean ====
section
/-! SUPPORT. What each shared operation can do, said once: the cases in which it completes, raises or hangs, and the state it
leaves. Later proofs cite these and do not unfold the operations. -/

namespace Sys2Proof.Machine

/-! ### Sequencing -/

@[simp] theorem Res.andThen_done {α β : Type} (a : α) (s : State) (f : α → State → Res β) :
    (Res.done a s).andThen f = f a s := rfl

@[simp] theorem Res.andThen_raised {α β : Type} (e : Error) (s : State) (f : α → State → Res β) :
    (Res.raised e s : Res α).andThen f = .raised e s := rfl

@[simp] theorem Res.andThen_hung {α β : Type} (why : Fault) (f : α → State → Res β) :
    (Res.hung why : Res α).andThen f = .hung why := rfl

@[simp] theorem Res.outcome_done (s : State) : (Res.done () s).outcome = .next s := rfl

@[simp] theorem Res.outcome_raised (e : Error) (s : State) : (Res.raised e s : Res Unit).outcome = .next (s.takeError e) := rfl

@[simp] theorem Res.outcome_hung (why : Fault) : (Res.hung why : Res Unit).outcome = .fault why := rfl

/-- A sequence completes exactly when both its parts do. -/
theorem Res.andThen_eq_done {α β : Type} {r : Res α} {f : α → State → Res β} {b : β} {t : State} :
    r.andThen f = .done b t ↔ ∃ a s, r = .done a s ∧ f a s = .done b t := by
  cases r <;> simp [Res.andThen]

/-- A sequence raises where its first part does, or its second. -/
theorem Res.andThen_eq_raised {α β : Type} {r : Res α} {f : α → State → Res β} {e : Error} {t : State} :
    r.andThen f = .raised e t ↔ r = .raised e t ∨ ∃ a s, r = .done a s ∧ f a s = .raised e t := by
  cases r <;> simp [Res.andThen]

/-- An instruction that answers a next state completed there, or took an error there. -/
theorem Res.outcome_eq_next {r : Res Unit} {t : State} :
    r.outcome = .next t ↔ r = .done () t ∨ ∃ e s, r = .raised e s ∧ t = s.takeError e := by
  cases r with
  | done u s => simp [Res.outcome]
  | raised e s => simp [Res.outcome, eq_comm]
  | hung why => simp [Res.outcome]

/-! ### Registers -/

@[simp] theorem State.reg_zero (s : State) : s.reg 0#8 = 0#16 := rfl

@[simp] theorem State.reg_one (s : State) : s.reg 1#8 = 1#16 := rfl

/-- A register that is not write-protected reads back what its slot was given. -/
theorem State.reg_setReg_self (s : State) {i : RegIdx} (h : isWriteProtected i = false) (v : Word) :
    (s.setReg i v).reg i = v := by
  simp only [isWriteProtected, Bool.or_eq_false_iff, beq_eq_false_iff_ne] at h
  simp [State.reg, h.1, h.2]

/-- Writing one slot leaves the other registers. -/
theorem State.reg_setReg_of_ne (s : State) {i r : RegIdx} (h : r ≠ i) (v : Word) : (s.setReg i v).reg r = s.reg r := by
  have hn : i.toNat ≠ r.toNat := fun hn => h (BitVec.eq_of_toNat_eq hn.symm)
  simp only [State.reg, State.setReg_regs]
  split
  · rfl
  · split
    · rfl
    · exact Vector.getElem_set_ne _ _ hn

@[simp] theorem State.reg_ip_setReg_ip (s : State) (v : Word) : (s.setReg ipIdx v).reg ipIdx = v :=
  s.reg_setReg_self rfl v

/-- The last write of a slot is the one that counts. -/
@[simp] theorem State.setReg_setReg (s : State) (i : RegIdx) (v w : Word) : (s.setReg i v).setReg i w = s.setReg i w := by
  simp [State.setReg]

/-- Writes of different slots commute. -/
theorem State.setReg_comm (s : State) {i r : RegIdx} (h : i ≠ r) (v w : Word) :
    (s.setReg i v).setReg r w = (s.setReg r w).setReg i v := by
  have hn : i.toNat ≠ r.toNat := fun hn => h (BitVec.eq_of_toNat_eq hn)
  simp only [State.setReg]
  rw [Vector.set_comm _ _ hn]

/-- Writing a writable register with what it holds changes nothing. -/
theorem State.setReg_reg (s : State) {i : RegIdx} (h : isWriteProtected i = false) : s.setReg i (s.reg i) = s := by
  simp only [isWriteProtected, Bool.or_eq_false_iff, beq_eq_false_iff_ne] at h
  simp [State.setReg, State.reg, h.1, h.2]

theorem isWriteProtected_iff (i : RegIdx) : isWriteProtected i = true ↔ i.toNat < 2 := by
  simp only [isWriteProtected, Bool.or_eq_true, beq_iff_eq, ← BitVec.toNat_inj]
  constructor
  · rintro (h | h) <;> simp [h]
  · intro h
    have : i.toNat = 0 ∨ i.toNat = 1 := by omega
    simpa using this

theorem isWriteProtected_eq_false_iff (i : RegIdx) : isWriteProtected i = false ↔ 2 ≤ i.toNat := by
  rw [← Bool.not_eq_true, isWriteProtected_iff]; omega

/-- The write-protection check: it raises or it does nothing. -/
theorem checkWritable_cases (i : RegIdx) (s : State) :
    (i.toNat < 2 ∧ checkWritable i s = .raised (.writeProtected i) s) ∨ (2 ≤ i.toNat ∧ checkWritable i s = .done () s) := by
  unfold checkWritable
  cases h : isWriteProtected i
  · exact .inr ⟨(isWriteProtected_eq_false_iff i).mp h, by simp⟩
  · exact .inl ⟨(isWriteProtected_iff i).mp h, by simp⟩

/-- A register write: it raises and changes nothing, or it sets the slot. -/
theorem writeReg_cases (i : RegIdx) (v : Word) (s : State) :
    (i.toNat < 2 ∧ writeReg i v s = .raised (.writeProtected i) s) ∨
    (2 ≤ i.toNat ∧ writeReg i v s = .done () (s.setReg i v)) := by
  unfold writeReg
  cases h : isWriteProtected i
  · exact .inr ⟨(isWriteProtected_eq_false_iff i).mp h, by simp⟩
  · exact .inl ⟨(isWriteProtected_iff i).mp h, by simp⟩

theorem checkWritable_of_lt {i : RegIdx} (h : i.toNat < 2) (s : State) : checkWritable i s = .raised (.writeProtected i) s := by
  simp [checkWritable, (isWriteProtected_iff i).mpr h]

theorem checkWritable_of_le {i : RegIdx} (h : 2 ≤ i.toNat) (s : State) : checkWritable i s = .done () s := by
  simp [checkWritable, (isWriteProtected_eq_false_iff i).mpr h]

theorem writeReg_of_lt {i : RegIdx} (h : i.toNat < 2) (v : Word) (s : State) :
    writeReg i v s = .raised (.writeProtected i) s := by
  simp [writeReg, (isWriteProtected_iff i).mpr h]

theorem writeReg_of_le {i : RegIdx} (h : 2 ≤ i.toNat) (v : Word) (s : State) : writeReg i v s = .done () (s.setReg i v) := by
  simp [writeReg, (isWriteProtected_eq_false_iff i).mpr h]

/-! ### The segment router -/

/-- Where an address goes: RAM, the one device the registry finds, or nowhere. -/
theorem route_cases (s : State) (a : Word) :
    (a.toNat < s.config.dataSize ∧ route s a = .ram) ∨
    (s.config.dataSize ≤ a.toNat ∧ ∃ dev, registryLookup s.config.devices a = some dev ∧ route s a = .device dev) ∨
    (s.config.dataSize ≤ a.toNat ∧ registryLookup s.config.devices a = none ∧ route s a = .unmapped) := by
  unfold route
  by_cases h : a.toNat < s.config.dataSize
  · exact .inl ⟨h, by simp [h]⟩
  · refine .inr ?_
    cases hl : registryLookup s.config.devices a with
    | none => exact .inr ⟨by omega, rfl, by simp [h]⟩
    | some dev => exact .inl ⟨by omega, dev, rfl, by simp [h]⟩

theorem route_eq_ram_iff (s : State) (a : Word) : route s a = .ram ↔ a.toNat < s.config.dataSize := by
  rcases route_cases s a with h | ⟨h, dev, _, hr⟩ | ⟨h, _, hr⟩
  · simp [h]
  · simp [hr]; omega
  · simp [hr]; omega

/-- The router reads the configuration and nothing else. -/
theorem route_congr {s t : State} (h : s.config = t.config) (a : Word) : route s a = route t a := by
  unfold route; rw [h]

/-- What one access to a device can do. -/
theorem callDevice_cases (dev : Device) (p : IoAccess) (s : State) :
    (∃ v, deviceAnswer dev s.io p = .ok v ∧ callDevice dev p s = .done v { s with io := s.io ++ [p] }) ∨
    (∃ e, deviceAnswer dev s.io p = .error e ∧
      callDevice dev p s = .raised (.deviceError (accessAddress p) e) { s with io := s.io ++ [p] }) ∨
    (deviceAnswer dev s.io p = .never ∧ callDevice dev p s = .hung (.deviceNeverAnswers (accessAddress p))) := by
  unfold callDevice
  cases h : deviceAnswer dev s.io p with
  | ok v => exact .inl ⟨v, rfl, rfl⟩
  | error e => exact .inr (.inl ⟨e, rfl, rfl⟩)
  | never => exact .inr (.inr ⟨rfl, rfl⟩)

/-- A read that completes changes at most the record of device accesses. -/
theorem memRead_done {a v : Word} {s t : State} (h : memRead a s = .done v t) :
    (a.toNat < s.config.dataSize ∧ v = s.data.readWord a.toNat ∧ t = s) ∨
    (∃ dev, route s a = .device dev ∧ deviceAnswer dev s.io (.load a) = .ok v ∧ t = { s with io := s.io ++ [.load a] }) := by
  unfold memRead at h
  rcases route_cases s a with ⟨hlt, hr⟩ | ⟨_, dev, _, hr⟩ | ⟨_, _, hr⟩ <;> simp only [hr] at h
  · cases h; exact .inl ⟨hlt, rfl, rfl⟩
  · rcases callDevice_cases dev (.load a) s with ⟨w, ha, hc⟩ | ⟨e, _, hc⟩ | ⟨_, hc⟩ <;> rw [hc] at h
    · cases h; exact .inr ⟨dev, hr, ha, rfl⟩
    · cases h
    · cases h
  · cases h

/-- A read that raises: no device claims the address, or its device answered with an error. -/
theorem memRead_raised {a : Word} {e : Error} {s t : State} (h : memRead a s = .raised e t) :
    (route s a = .unmapped ∧ e = .unmappedIoAddress a ∧ t = s) ∨
    (∃ dev n, route s a = .device dev ∧ e = .deviceError a n ∧ t = { s with io := s.io ++ [.load a] }) := by
  unfold memRead at h
  rcases route_cases s a with ⟨_, hr⟩ | ⟨_, dev, _, hr⟩ | ⟨_, _, hr⟩ <;> simp only [hr] at h
  · cases h
  · rcases callDevice_cases dev (.load a) s with ⟨w, _, hc⟩ | ⟨n, _, hc⟩ | ⟨_, hc⟩ <;> rw [hc] at h
    · cases h
    · cases h; exact .inr ⟨dev, n, hr, rfl, rfl⟩
    · cases h
  · cases h; exact .inl ⟨hr, rfl, rfl⟩

/-- A write that completes: RAM's cell, or one access to a device. -/
theorem memWrite_done {a v : Word} {s t : State} (h : memWrite a v s = .done () t) :
    (a.toNat < s.config.dataSize ∧ t = s.setMem .data (s.data.writeWord a.toNat v)) ∨
    (∃ dev, route s a = .device dev ∧ t = { s with io := s.io ++ [.store a v] }) := by
  unfold memWrite at h
  rcases route_cases s a with ⟨hlt, hr⟩ | ⟨_, dev, _, hr⟩ | ⟨_, _, hr⟩ <;> simp only [hr] at h
  · cases h; exact .inl ⟨hlt, rfl⟩
  · rcases callDevice_cases dev (.store a v) s with ⟨w, _, hc⟩ | ⟨e, _, hc⟩ | ⟨_, hc⟩ <;> rw [hc] at h
    · cases h; exact .inr ⟨dev, hr, rfl⟩
    · cases h
    · cases h
  · cases h

/-- A write that raises: no device claims the address, or its device answered with an error. -/
theorem memWrite_raised {a v : Word} {e : Error} {s t : State} (h : memWrite a v s = .raised e t) :
    (route s a = .unmapped ∧ e = .unmappedIoAddress a ∧ t = s) ∨
    (∃ dev n, route s a = .device dev ∧ e = .deviceError a n ∧ t = { s with io := s.io ++ [.store a v] }) := by
  unfold memWrite at h
  rcases route_cases s a with ⟨_, hr⟩ | ⟨_, dev, _, hr⟩ | ⟨_, _, hr⟩ <;> simp only [hr] at h
  · cases h
  · rcases callDevice_cases dev (.store a v) s with ⟨w, _, hc⟩ | ⟨n, _, hc⟩ | ⟨_, hc⟩ <;> rw [hc] at h
    · cases h
    · cases h; exact .inr ⟨dev, n, hr, rfl, rfl⟩
    · cases h
  · cases h; exact .inl ⟨hr, rfl, rfl⟩

/-- The probe: it raises for an address nothing claims, and else does nothing. -/
theorem memProbe_cases (a : Word) (s : State) :
    (route s a = .unmapped ∧ memProbe a s = .raised (.unmappedIoAddress a) s) ∨
    (route s a ≠ .unmapped ∧ memProbe a s = .done () s) := by
  unfold memProbe
  cases h : route s a with
  | ram => exact .inr ⟨by simp, rfl⟩
  | device dev => exact .inr ⟨by simp, rfl⟩
  | unmapped => exact .inl ⟨rfl, rfl⟩

/-! ### The stacks -/

/-- A push: out of range and nothing changed, or the pointer moved and its cell written. -/
theorem push_cases (k : StackId) (v : Word) (s : State) :
    (s.size (stackSegment k) ≤ (pushAddress k s).toNat ∧
      push k v s = .raised (.addressOutOfRange (stackSegment k) (pushAddress k s)) s) ∨
    ((pushAddress k s).toNat < s.size (stackSegment k) ∧
      push k v s = .done () ((s.setReg (stackPointer k) (pushAddress k s)).setMem (stackSegment k)
        ((s.mem (stackSegment k)).writeWord (pushAddress k s).toNat v))) := by
  unfold push
  by_cases h : s.size (stackSegment k) ≤ (pushAddress k s).toNat
  · exact .inl ⟨h, by simp [h]⟩
  · exact .inr ⟨by omega, by simp [h]⟩

/-- A peek: out of range, or the top cell; nothing changes. -/
theorem peek_cases (k : StackId) (s : State) :
    (s.size (stackSegment k) ≤ (s.reg (stackPointer k)).toNat ∧
      peek k s = .raised (.addressOutOfRange (stackSegment k) (s.reg (stackPointer k))) s) ∨
    ((s.reg (stackPointer k)).toNat < s.size (stackSegment k) ∧
      peek k s = .done ((s.mem (stackSegment k)).readWord (s.reg (stackPointer k)).toNat) s) := by
  unfold peek
  by_cases h : s.size (stackSegment k) ≤ (s.reg (stackPointer k)).toNat
  · exact .inl ⟨h, by simp [h]⟩
  · exact .inr ⟨by omega, by simp [h]⟩

/-- A pop: out of range and nothing changed, or the top cell with the pointer moved. -/
theorem pop_cases (k : StackId) (s : State) :
    (s.size (stackSegment k) ≤ (s.reg (stackPointer k)).toNat ∧
      pop k s = .raised (.addressOutOfRange (stackSegment k) (s.reg (stackPointer k))) s) ∨
    ((s.reg (stackPointer k)).toNat < s.size (stackSegment k) ∧
      pop k s = .done ((s.mem (stackSegment k)).readWord (s.reg (stackPointer k)).toNat)
        (s.setReg (stackPointer k) (s.reg (stackPointer k) - 1#16))) := by
  unfold pop
  rcases peek_cases k s with ⟨h, hp⟩ | ⟨h, hp⟩ <;> rw [hp]
  · exact .inl ⟨h, rfl⟩
  · exact .inr ⟨h, rfl⟩

/-! ### Jumps and the arithmetic unit -/

/-- A branch: a call whose push is out of range, or the jump, after the push if it is a call. -/
theorem branch_cases (addr : Word) (isCall : Bool) (s : State) :
    (isCall = true ∧ s.config.callSize ≤ (s.csp + 1#16).toNat ∧
      branch addr isCall s = .raised (.addressOutOfRange .call (s.csp + 1#16)) s) ∨
    (isCall = true ∧ (s.csp + 1#16).toNat < s.config.callSize ∧
      branch addr isCall s = .done () (((s.setReg cspIdx (s.csp + 1#16)).setMem .call
        (s.call.writeWord (s.csp + 1#16).toNat s.nextAddress)).jumpTo addr)) ∨
    (isCall = false ∧ branch addr isCall s = .done () (s.jumpTo addr)) := by
  cases isCall with
  | false => exact .inr (.inr ⟨rfl, rfl⟩)
  | true =>
    rcases push_cases .callStack s.nextAddress s with ⟨h, hp⟩ | ⟨h, hp⟩
    · exact .inl ⟨rfl, h, by simp only [branch, if_true, hp]; rfl⟩
    · exact .inr (.inl ⟨rfl, h, by simp only [branch, if_true, hp]; rfl⟩)

/-- The end of an arithmetic instruction: division by zero first, then write protection, then the result. -/
theorem arithmetic_cases (f : ArithFn) (d : RegIdx) (a b : Word) (s : State) :
    (f a b = none ∧ arithmetic f d a b s = .raised .divideByZero s) ∨
    (∃ r, f a b = some r ∧ d.toNat < 2 ∧ arithmetic f d a b s = .raised (.writeProtected d) s) ∨
    (∃ r, f a b = some r ∧ 2 ≤ d.toNat ∧ arithmetic f d a b s = .done () (s.setReg d r)) := by
  unfold arithmetic
  cases h : f a b with
  | none => exact .inl ⟨rfl, rfl⟩
  | some r =>
    rcases writeReg_cases d r s with ⟨hd, hw⟩ | ⟨hd, hw⟩
    · exact .inr (.inl ⟨r, rfl, hd, hw⟩)
    · exact .inr (.inr ⟨r, rfl, hd, hw⟩)

end Sys2Proof.Machine
end

