-- ==== Sys2Proof/Laws/PerInstr.lean ====
section
/-! SUPPORT. A property of every instruction as syntax, one lemma per constructor: its operands name registers and an
immediate that exist (10_state.md R24), and its record fits the fields of the word (30_encoding.md R107). -/

namespace Sys2Proof.Laws.FieldsFit

/-- The instruction is well-formed and its record fits the fields `encode` accepts. -/
def Statement (i : Instr) : Prop :=
  i.wellFormed = true ∧ i.record.values.wellFormed = true

/-- Every record fits: its fields have exactly the widths of the word. -/
theorem record_values_wellFormed (r : DecodedInstruction) : r.values.wellFormed = true := by
  have hg : r.group.toNat < 8 := r.group.isLt
  have ho : r.op.toNat < 32 := r.op.isLt
  have h0 : r.data0.toNat < 256 := r.data0.isLt
  have h1 : r.data1.toNat < 256 := r.data1.isLt
  have h2 : r.data2.toNat < 256 := r.data2.isLt
  simp [FieldValues.wellFormed, DecodedInstruction.values, hg, ho, h0, h1, h2]

/-- Operands of the operand types always fit. -/
theorem operands_wellFormed (i : Instr) : i.wellFormed = true := by
  simp only [Instr.wellFormed, Bool.and_eq_true, List.all_eq_true, Option.all_eq_true, decide_eq_true_eq]
  exact ⟨fun r _ => r.isLt, fun v _ => v.isLt⟩

theorem add (d s0 s1 : RegIdx) : Statement (.add d s0 s1) := ⟨operands_wellFormed _, record_values_wellFormed _⟩

theorem sub (d s0 s1 : RegIdx) : Statement (.sub d s0 s1) := ⟨operands_wellFormed _, record_values_wellFormed _⟩

theorem mul (d s0 s1 : RegIdx) : Statement (.mul d s0 s1) := ⟨operands_wellFormed _, record_values_wellFormed _⟩

theorem div (d s0 s1 : RegIdx) : Statement (.div d s0 s1) := ⟨operands_wellFormed _, record_values_wellFormed _⟩

theorem rem (d s0 s1 : RegIdx) : Statement (.rem d s0 s1) := ⟨operands_wellFormed _, record_values_wellFormed _⟩

theorem shl (d s0 s1 : RegIdx) : Statement (.shl d s0 s1) := ⟨operands_wellFormed _, record_values_wellFormed _⟩

theorem shr (d s0 s1 : RegIdx) : Statement (.shr d s0 s1) := ⟨operands_wellFormed _, record_values_wellFormed _⟩

theorem and (d s0 s1 : RegIdx) : Statement (.and d s0 s1) := ⟨operands_wellFormed _, record_values_wellFormed _⟩

theorem or (d s0 s1 : RegIdx) : Statement (.or d s0 s1) := ⟨operands_wellFormed _, record_values_wellFormed _⟩

theorem not (d s0 : RegIdx) : Statement (.not d s0) := ⟨operands_wellFormed _, record_values_wellFormed _⟩

theorem xor (d s0 s1 : RegIdx) : Statement (.xor d s0 s1) := ⟨operands_wellFormed _, record_values_wellFormed _⟩

theorem inc (d s0 : RegIdx) : Statement (.inc d s0) := ⟨operands_wellFormed _, record_values_wellFormed _⟩

theorem dec (d s0 : RegIdx) : Statement (.dec d s0) := ⟨operands_wellFormed _, record_values_wellFormed _⟩

theorem double (d s0 : RegIdx) : Statement (.double d s0) := ⟨operands_wellFormed _, record_values_wellFormed _⟩

theorem halve (d s0 : RegIdx) : Statement (.halve d s0) := ⟨operands_wellFormed _, record_values_wellFormed _⟩

theorem addi (d : RegIdx) (imm : Word) : Statement (.addi d imm) := ⟨operands_wellFormed _, record_values_wellFormed _⟩

theorem subi (d : RegIdx) (imm : Word) : Statement (.subi d imm) := ⟨operands_wellFormed _, record_values_wellFormed _⟩

theorem muli (d : RegIdx) (imm : Word) : Statement (.muli d imm) := ⟨operands_wellFormed _, record_values_wellFormed _⟩

theorem divi (d : RegIdx) (imm : Word) : Statement (.divi d imm) := ⟨operands_wellFormed _, record_values_wellFormed _⟩

theorem remi (d : RegIdx) (imm : Word) : Statement (.remi d imm) := ⟨operands_wellFormed _, record_values_wellFormed _⟩

theorem shli (d : RegIdx) (imm : Word) : Statement (.shli d imm) := ⟨operands_wellFormed _, record_values_wellFormed _⟩

theorem shri (d : RegIdx) (imm : Word) : Statement (.shri d imm) := ⟨operands_wellFormed _, record_values_wellFormed _⟩

theorem move (d s0 : RegIdx) : Statement (.move d s0) := ⟨operands_wellFormed _, record_values_wellFormed _⟩

theorem swap (d s0 : RegIdx) : Statement (.swap d s0) := ⟨operands_wellFormed _, record_values_wellFormed _⟩

theorem swapRm (d s0 : RegIdx) : Statement (.swapRm d s0) := ⟨operands_wellFormed _, record_values_wellFormed _⟩

theorem swapMm (d s0 : RegIdx) : Statement (.swapMm d s0) := ⟨operands_wellFormed _, record_values_wellFormed _⟩

theorem swapRi (d : RegIdx) (imm : Word) : Statement (.swapRi d imm) := ⟨operands_wellFormed _, record_values_wellFormed _⟩

theorem swapMi (d : RegIdx) (imm : Word) : Statement (.swapMi d imm) := ⟨operands_wellFormed _, record_values_wellFormed _⟩

theorem set (d : RegIdx) (imm : Word) : Statement (.set d imm) := ⟨operands_wellFormed _, record_values_wellFormed _⟩

theorem load (d s0 : RegIdx) : Statement (.load d s0) := ⟨operands_wellFormed _, record_values_wellFormed _⟩

theorem loadI (d : RegIdx) (imm : Word) : Statement (.loadI d imm) := ⟨operands_wellFormed _, record_values_wellFormed _⟩

theorem store (d s0 : RegIdx) : Statement (.store d s0) := ⟨operands_wellFormed _, record_values_wellFormed _⟩

theorem storeM (d s0 : RegIdx) : Statement (.storeM d s0) := ⟨operands_wellFormed _, record_values_wellFormed _⟩

theorem storeIa (d : RegIdx) (imm : Word) : Statement (.storeIa d imm) := ⟨operands_wellFormed _, record_values_wellFormed _⟩

theorem storeIv (d : RegIdx) (imm : Word) : Statement (.storeIv d imm) := ⟨operands_wellFormed _, record_values_wellFormed _⟩

theorem push (s0 : RegIdx) : Statement (.push s0) := ⟨operands_wellFormed _, record_values_wellFormed _⟩

theorem pushI (imm : Word) : Statement (.pushI imm) := ⟨operands_wellFormed _, record_values_wellFormed _⟩

theorem pop (d : RegIdx) : Statement (.pop d) := ⟨operands_wellFormed _, record_values_wellFormed _⟩

theorem peek (d : RegIdx) : Statement (.peek d) := ⟨operands_wellFormed _, record_values_wellFormed _⟩

theorem eq (s0 s1 : RegIdx) : Statement (.eq s0 s1) := ⟨operands_wellFormed _, record_values_wellFormed _⟩

theorem eqAnd (s0 s1 : RegIdx) : Statement (.eqAnd s0 s1) := ⟨operands_wellFormed _, record_values_wellFormed _⟩

theorem eqOr (s0 s1 : RegIdx) : Statement (.eqOr s0 s1) := ⟨operands_wellFormed _, record_values_wellFormed _⟩

theorem eqXor (s0 s1 : RegIdx) : Statement (.eqXor s0 s1) := ⟨operands_wellFormed _, record_values_wellFormed _⟩

theorem neq (s0 s1 : RegIdx) : Statement (.neq s0 s1) := ⟨operands_wellFormed _, record_values_wellFormed _⟩

theorem neqAnd (s0 s1 : RegIdx) : Statement (.neqAnd s0 s1) := ⟨operands_wellFormed _, record_values_wellFormed _⟩

theorem neqOr (s0 s1 : RegIdx) : Statement (.neqOr s0 s1) := ⟨operands_wellFormed _, record_values_wellFormed _⟩

theorem neqXor (s0 s1 : RegIdx) : Statement (.neqXor s0 s1) := ⟨operands_wellFormed _, record_values_wellFormed _⟩

theorem lt (s0 s1 : RegIdx) : Statement (.lt s0 s1) := ⟨operands_wellFormed _, record_values_wellFormed _⟩

theorem ltAnd (s0 s1 : RegIdx) : Statement (.ltAnd s0 s1) := ⟨operands_wellFormed _, record_values_wellFormed _⟩

theorem ltOr (s0 s1 : RegIdx) : Statement (.ltOr s0 s1) := ⟨operands_wellFormed _, record_values_wellFormed _⟩

theorem ltXor (s0 s1 : RegIdx) : Statement (.ltXor s0 s1) := ⟨operands_wellFormed _, record_values_wellFormed _⟩

theorem gt (s0 s1 : RegIdx) : Statement (.gt s0 s1) := ⟨operands_wellFormed _, record_values_wellFormed _⟩

theorem gtAnd (s0 s1 : RegIdx) : Statement (.gtAnd s0 s1) := ⟨operands_wellFormed _, record_values_wellFormed _⟩

theorem gtOr (s0 s1 : RegIdx) : Statement (.gtOr s0 s1) := ⟨operands_wellFormed _, record_values_wellFormed _⟩

theorem gtXor (s0 s1 : RegIdx) : Statement (.gtXor s0 s1) := ⟨operands_wellFormed _, record_values_wellFormed _⟩

theorem le (s0 s1 : RegIdx) : Statement (.le s0 s1) := ⟨operands_wellFormed _, record_values_wellFormed _⟩

theorem leAnd (s0 s1 : RegIdx) : Statement (.leAnd s0 s1) := ⟨operands_wellFormed _, record_values_wellFormed _⟩

theorem leOr (s0 s1 : RegIdx) : Statement (.leOr s0 s1) := ⟨operands_wellFormed _, record_values_wellFormed _⟩

theorem leXor (s0 s1 : RegIdx) : Statement (.leXor s0 s1) := ⟨operands_wellFormed _, record_values_wellFormed _⟩

theorem ge (s0 s1 : RegIdx) : Statement (.ge s0 s1) := ⟨operands_wellFormed _, record_values_wellFormed _⟩

theorem geAnd (s0 s1 : RegIdx) : Statement (.geAnd s0 s1) := ⟨operands_wellFormed _, record_values_wellFormed _⟩

theorem geOr (s0 s1 : RegIdx) : Statement (.geOr s0 s1) := ⟨operands_wellFormed _, record_values_wellFormed _⟩

theorem geXor (s0 s1 : RegIdx) : Statement (.geXor s0 s1) := ⟨operands_wellFormed _, record_values_wellFormed _⟩

theorem bI (imm : Word) : Statement (.bI imm) := ⟨operands_wellFormed _, record_values_wellFormed _⟩

theorem callI (imm : Word) : Statement (.callI imm) := ⟨operands_wellFormed _, record_values_wellFormed _⟩

theorem bR (s0 : RegIdx) : Statement (.bR s0) := ⟨operands_wellFormed _, record_values_wellFormed _⟩

theorem callR (s0 : RegIdx) : Statement (.callR s0) := ⟨operands_wellFormed _, record_values_wellFormed _⟩

theorem btI (imm : Word) : Statement (.btI imm) := ⟨operands_wellFormed _, record_values_wellFormed _⟩

theorem calltI (imm : Word) : Statement (.calltI imm) := ⟨operands_wellFormed _, record_values_wellFormed _⟩

theorem btR (s0 : RegIdx) : Statement (.btR s0) := ⟨operands_wellFormed _, record_values_wellFormed _⟩

theorem calltR (s0 : RegIdx) : Statement (.calltR s0) := ⟨operands_wellFormed _, record_values_wellFormed _⟩

theorem bfI (imm : Word) : Statement (.bfI imm) := ⟨operands_wellFormed _, record_values_wellFormed _⟩

theorem callfI (imm : Word) : Statement (.callfI imm) := ⟨operands_wellFormed _, record_values_wellFormed _⟩

theorem bfR (s0 : RegIdx) : Statement (.bfR s0) := ⟨operands_wellFormed _, record_values_wellFormed _⟩

theorem callfR (s0 : RegIdx) : Statement (.callfR s0) := ⟨operands_wellFormed _, record_values_wellFormed _⟩

theorem iteT (s0 s1 : RegIdx) : Statement (.iteT s0 s1) := ⟨operands_wellFormed _, record_values_wellFormed _⟩

theorem iteF (s0 s1 : RegIdx) : Statement (.iteF s0 s1) := ⟨operands_wellFormed _, record_values_wellFormed _⟩

theorem itecallT (s0 s1 : RegIdx) : Statement (.itecallT s0 s1) := ⟨operands_wellFormed _, record_values_wellFormed _⟩

theorem itecallF (s0 s1 : RegIdx) : Statement (.itecallF s0 s1) := ⟨operands_wellFormed _, record_values_wellFormed _⟩

theorem ret : Statement (.ret) := ⟨operands_wellFormed _, record_values_wellFormed _⟩

theorem syscallTerminate : Statement (.syscallTerminate) := ⟨operands_wellFormed _, record_values_wellFormed _⟩

theorem syscallPanic (imm : Word) : Statement (.syscallPanic imm) := ⟨operands_wellFormed _, record_values_wellFormed _⟩

theorem syscallPutc (s0 s1 : RegIdx) : Statement (.syscallPutc s0 s1) := ⟨operands_wellFormed _, record_values_wellFormed _⟩

end Sys2Proof.Laws.FieldsFit
end

