-- ==== Sys2Proof/Laws/System.lean ====
section
/-! SUPPORT. What a system call through the table can do (44_misc_syscall.md R270), and what the lifecycle of the composition
does to the units (47_functional_units.md R353). -/

namespace Sys2Proof.Machine

@[simp] theorem State.applyResult_halt (s : State) (c : BitVec 32) :
    s.applyResult true false c = { s with halted := true } := by
  simp [State.applyResult]

@[simp] theorem State.applyResult_emit (s : State) (c : BitVec 32) : s.applyResult false true c = s.emit c := by
  simp [State.applyResult]

@[simp] theorem State.applyResult_nothing (s : State) (c : BitVec 32) : s.applyResult false false c = s := by
  simp [State.applyResult]

@[simp] theorem State.applyResult_halted (s : State) (halt emit : Bool) (c : BitVec 32) :
    (s.applyResult halt emit c).halted = (s.halted || halt) := by
  cases emit <;> rfl

@[simp] theorem State.applyResult_out (s : State) (halt emit : Bool) (c : BitVec 32) :
    (s.applyResult halt emit c).out = if emit then s.out ++ [c] else s.out := by
  cases emit <;> rfl

/-- A result of a system call touches the halt flag and the output only. -/
theorem State.applyResult_frame (s : State) (halt emit : Bool) (c : BitVec 32) :
    s.applyResult halt emit c =
      { s with halted := (s.applyResult halt emit c).halted, out := (s.applyResult halt emit c).out } := by
  cases emit <;> rfl

/-- What a system call through the table can do: a result is applied, or an error is raised with nothing changed. It never
blocks. -/
theorem systemCall_cases (selector s0 s1 : Byte) (s : State) :
    (∃ halt emit c, systemCall selector s0 s1 s = .done () (s.applyResult halt emit c)) ∨
    (∃ payload, systemCall selector s0 s1 s = .raised (.panic payload) s) ∨
    (systemCallTable s.config selector = .invalid ∧ systemCall selector s0 s1 s = .raised (.invalidSystemCommand selector) s) := by
  unfold systemCall
  split
  · exact .inl ⟨_, _, _, rfl⟩
  · exact .inr (.inl ⟨_, rfl⟩)
  · exact .inl ⟨false, true, _, by rw [State.applyResult_emit]⟩
  · split
    · exact .inl ⟨_, _, _, rfl⟩
    · exact .inr (.inl ⟨_, rfl⟩)
  · exact .inr (.inr ⟨by assumption, rfl⟩)

/-- An unregistered selector (44_misc_syscall.md R276). -/
theorem systemCall_invalid {selector : Byte} {s : State} (h : systemCallTable s.config selector = .invalid) (s0 s1 : Byte) :
    systemCall selector s0 s1 s = .raised (.invalidSystemCommand selector) s := by
  simp [systemCall, h]

/-- With nothing registered, every selector from 3 on is Invalid (00_scope.md R6). -/
theorem systemCallTable_of_no_extension {c : Config} (h : c.syscallExt = []) {selector : Byte} (hs : 3 ≤ selector.toNat) :
    systemCallTable c selector = .invalid := by
  unfold systemCallTable
  split <;> first | omega | simp [h, registeredCall]

/-- The units of a core in which every one is idle, started: each waits for an operation. -/
theorem State.startUnits_of_idle {s : State} (h : s.units = Units.all .created) :
    s.startUnits = { s with units := Units.all .awaiting } := by
  cases s
  subst h
  rfl

/-- The units of a core in which every one waits, stopped: each is idle. -/
theorem State.stopUnits_of_awaiting {s : State} (h : s.units = Units.all .awaiting) :
    s.stopUnits = { s with units := Units.all .created } := by
  cases s
  subst h
  rfl

/-- Nothing is sent to units that are idle already. -/
theorem State.stopUnits_of_idle {s : State} (h : s.units = Units.all .created) : s.stopUnits = s := by
  cases s
  subst h
  rfl

end Sys2Proof.Machine
end

