-- ==== Sys2Proof/Laws/Units.lean ====
section
/-! SUPPORT. What a complete operation of a functional unit does, said once: offered to a unit that waits for an operation
code, it is the unit's computation, and the unit waits again (47_functional_units.md R325, R326, R354). -/

namespace Sys2Proof.Machine

/-- `f` applied to the state an operation reached. -/
def Res.mapState {α : Type} (f : State → State) : Res α → Res α
  | .done a s => .done a (f s)
  | .raised e s => .raised e (f s)
  | .hung why => .hung why

@[simp] theorem Res.mapState_done {α : Type} (f : State → State) (a : α) (s : State) :
    (Res.done a s).mapState f = .done a (f s) := rfl

@[simp] theorem Res.mapState_raised {α : Type} (f : State → State) (e : Error) (s : State) :
    (Res.raised e s : Res α).mapState f = .raised e (f s) := rfl

@[simp] theorem Res.mapState_hung {α : Type} (f : State → State) (why : Fault) :
    (Res.hung why : Res α).mapState f = .hung why := rfl

theorem callDevice_setUnit (u : UnitId) (x : UnitState) (dev : Device) (p : IoAccess) (s : State) :
    callDevice dev p (s.setUnit u x) = (callDevice dev p s).mapState (State.setUnit u x) := by
  simp only [callDevice, State.setUnit_io]
  cases deviceAnswer dev s.io p <;> rfl

theorem route_setUnit (u : UnitId) (x : UnitState) (a : Word) (s : State) : route (s.setUnit u x) a = route s a :=
  route_congr rfl a

theorem memRead_setUnit (u : UnitId) (x : UnitState) (a : Word) (s : State) :
    memRead a (s.setUnit u x) = (memRead a s).mapState (State.setUnit u x) := by
  simp only [memRead, route_setUnit]
  cases route s a with
  | ram => rfl
  | device dev => exact callDevice_setUnit u x dev _ s
  | unmapped => rfl

theorem memWrite_setUnit (u : UnitId) (x : UnitState) (a v : Word) (s : State) :
    memWrite a v (s.setUnit u x) = (memWrite a v s).mapState (State.setUnit u x) := by
  simp only [memWrite, route_setUnit]
  cases route s a with
  | ram => rfl
  | device dev =>
    simp only [callDevice_setUnit]
    cases callDevice dev (.store a v) s <;> rfl
  | unmapped => rfl

theorem writeReg_setUnit (u : UnitId) (x : UnitState) (i : RegIdx) (v : Word) (s : State) :
    writeReg i v (s.setUnit u x) = (writeReg i v s).mapState (State.setUnit u x) := by
  unfold writeReg
  cases isWriteProtected i <;> rfl

theorem memStackCompute_setUnit (k : StackId) (code : BitVec 8) (args : List (BitVec 32)) (u : UnitId) (x : UnitState)
    (s : State) :
    memStackCompute k code args (s.setUnit u x) = (memStackCompute k code args s).mapState (State.setUnit u x) := by
  by_cases h : s.size (stackSegment k) ≤ (operandWord args 0).toNat
  · have h' : (s.setUnit u x).size (stackSegment k) ≤ (operandWord args 0).toNat := by cases k <;> exact h
    simp only [memStackCompute, if_pos h, if_pos h', Res.mapState_raised]
  · have h' : ¬(s.setUnit u x).size (stackSegment k) ≤ (operandWord args 0).toNat := by cases k <;> exact h
    simp only [memStackCompute, if_neg h, if_neg h']
    cases codeBit code <;> cases k <;> rfl

/-- No computation of a unit looks at, or touches, the phase of any unit. -/
theorem unitCompute_setUnit (w : UnitId) (code : BitVec 8) (args : List (BitVec 32)) (u : UnitId) (x : UnitState)
    (s : State) :
    unitCompute w code args (s.setUnit u x) = (unitCompute w code args s).mapState (State.setUnit u x) := by
  cases w with
  | rf =>
    simp only [unitCompute, rfCompute, writeReg_setUnit, State.setUnit_reg]
    split
    · cases writeReg ((operandAt args 0).setWidth 8) (operandWord args 1) s <;> rfl
    · rfl
  | dec => simp only [unitCompute, decCompute]; split <;> rfl
  | alu =>
    simp only [unitCompute, aluCompute]
    split
    · rfl
    · split <;> rfl
  | cmp => simp only [unitCompute, cmpCompute]; split <;> rfl
  | bru => simp only [unitCompute, bruCompute, State.setUnit_config]; split <;> rfl
  | memCode =>
    by_cases h : s.config.codeSize ≤ (operandWord args 0).toNat
    · have h' : (s.setUnit u x).config.codeSize ≤ (operandWord args 0).toNat := h
      simp only [unitCompute, memCodeCompute, if_pos h, if_pos h', Res.mapState_raised]
    · have h' : ¬(s.setUnit u x).config.codeSize ≤ (operandWord args 0).toNat := h
      simp only [unitCompute, memCodeCompute, if_neg h, if_neg h']
      cases codeBit code <;> rfl
  | memData =>
    simp only [unitCompute, memDataCompute, memRead_setUnit, memWrite_setUnit]
    split
    · cases memWrite (operandWord args 0) (operandWord args 1) s <;> rfl
    · cases memRead (operandWord args 0) s <;> rfl
  | memStack => exact memStackCompute_setUnit .dataStack code args u x s
  | memCall => exact memStackCompute_setUnit .callStack code args u x s
  | sys =>
    simp only [unitCompute, sysCompute, State.setUnit_config]
    split <;> try rfl
    split <;> rfl

/-- No computation of a unit changes the units. -/
theorem unitCompute_units {w : UnitId} {code : BitVec 8} {args : List (BitVec 32)} {s t : State} :
    (∀ r, unitCompute w code args s = .done r t → t.units = s.units) ∧
    (∀ e, unitCompute w code args s = .raised e t → t.units = s.units) := by
  have h : ∀ (u : UnitId), unitCompute w code args s = (unitCompute w code args s).mapState (State.setUnit u (s.unit u)) := by
    intro u
    rw [← unitCompute_setUnit, State.setUnit_unit]
  have key : ∀ u, t = t.setUnit u (s.unit u) → t.units.get u = s.units.get u := by
    intro u hu
    have : t.unit u = s.unit u := by rw [hu, State.unit_setUnit_self]
    exact this
  have units_ext : ∀ a b : Units, (∀ u, a.get u = b.get u) → a = b := by
    intro a b hab
    cases a; cases b
    simp only [Units.mk.injEq]
    exact ⟨hab .rf, hab .dec, hab .alu, hab .cmp, hab .bru, hab .memCode, hab .memData, hab .memStack, hab .memCall, hab .sys⟩
  constructor
  · intro r hr
    refine units_ext _ _ fun u => key u ?_
    have := h u
    rw [hr] at this
    simpa using this
  · intro e he
    refine units_ext _ _ fun u => key u ?_
    have := h u
    rw [he] at this
    simpa using this

/-- Whether an operation is accepted does not depend on the phase of any unit. -/
@[simp] theorem unitAccepts_setUnit (w : UnitId) (code : BitVec 8) (u : UnitId) (x : UnitState) (s : State) :
    unitAccepts w code (s.setUnit u x) = unitAccepts w code s := by
  cases w <;> rfl

/-- Every operation but a Store of MEM.code is accepted whenever the unit waits for one (47_functional_units.md R338). -/
theorem unitAccepts_of_not_store {u : UnitId} {code : BitVec 8} (h : u = .memCode → codeBit code = false) (s : State) :
    unitAccepts u code s = true := by
  cases u <;> simp_all [unitAccepts]

/-- Until the first step every operation is accepted. -/
theorem unitAccepts_of_not_started {s : State} (h : s.started = false) (u : UnitId) (code : BitVec 8) :
    unitAccepts u code s = true := by
  cases u <;> simp_all [unitAccepts]

/-- A unit that has received some operands. -/
def UnitState.receiving (code : BitVec 8) (got : List (BitVec 32)) : UnitState :=
  { running := true, phase := .awaitOperand code got, stopping := false }

/-- A unit that offers an outcome. -/
def UnitState.offering (o : UnitOutcome) : UnitState :=
  { running := true, phase := .emit o, stopping := false }

/-- Where a computation leaves the unit: its outcome offered. -/
def offered (u : UnitId) : Res UnitResult → Res Unit
  | .done r t => .done () (t.setUnit u (.offering (.result r)))
  | .raised e t => .done () (t.setUnit u (.offering (.error e)))
  | .hung why => .hung why

theorem unitOperand_receiving {u : UnitId} {code : BitVec 8} {got : List (BitVec 32)} {s : State}
    (h : s.unit u = .receiving code got) (hacc : unitAccepts u code s = true) (v : BitVec 32) :
    (got.length + 1 ≠ unitArity u → offer u (.operand (got.length + 1) v) s =
      .done () (s.setUnit u (.receiving code (got ++ [v])))) ∧
    (got.length + 1 = unitArity u → offer u (.operand (got.length + 1) v) s = offered u (unitCompute u code (got ++ [v]) s)) := by
  constructor
  · intro hne
    simp [offer, unitEvent, unitOperand, h, UnitState.receiving, hne, hacc]
  · intro heq
    simp only [offer, unitEvent, unitOperand, h, UnitState.receiving, hacc, and_self, if_true, if_pos heq, unitComplete]
    cases hc : unitCompute u code (got ++ [v]) s with
    | done r t =>
      have hu : t.unit u = s.unit u := congrArg (fun us => us.get u) ((unitCompute_units).1 r hc)
      simp [offered, UnitState.offering, hu, h, UnitState.receiving]
    | raised e t =>
      have hu : t.unit u = s.unit u := congrArg (fun us => us.get u) ((unitCompute_units).2 e hc)
      simp [offered, UnitState.offering, hu, h, UnitState.receiving]
    | hung why => rfl

/-- All the remaining operands offered in order: the unit computes. -/
theorem offerOperands_receiving {u : UnitId} {code : BitVec 8} :
    ∀ (rest got : List (BitVec 32)) (s : State), rest ≠ [] → got.length + rest.length = unitArity u →
      s.unit u = .receiving code got → unitAccepts u code s = true →
      offerOperands u (got.length + 1) rest s = offered u ((unitCompute u code (got ++ rest) s))
  | [], _, _, h, _, _, _ => absurd rfl h
  | [v], got, s, _, hlen, hu, hacc => by
    have := (unitOperand_receiving hu hacc v).2 (by simpa using hlen)
    simp only [offerOperands, this]
    cases unitCompute u code (got ++ [v]) s <;> rfl
  | v :: w :: rest, got, s, _, hlen, hu, hacc => by
    have hne : got.length + 1 ≠ unitArity u := by simp at hlen; omega
    have ho := (unitOperand_receiving hu hacc v).1 hne
    have hu' : (s.setUnit u (.receiving code (got ++ [v]))).unit u = .receiving code (got ++ [v]) := by simp
    have ih := offerOperands_receiving (w :: rest) (got ++ [v]) (s.setUnit u (.receiving code (got ++ [v]))) (by simp)
      (by simp at hlen ⊢; omega) hu' (by simpa using hacc)
    rw [offerOperands, ho, Res.andThen_done]
    simp only [List.length_append, List.length_singleton] at ih
    rw [ih, unitCompute_setUnit, List.append_assoc, List.singleton_append]
    cases unitCompute u code (got ++ v :: w :: rest) s <;> simp [offered]

/-- The outcome taken from a unit that offers one. -/
theorem collect_offering {u : UnitId} {s : State} :
    (∀ r, s.unit u = .offering (.result r) → collect u s = .done r (s.setUnit u .awaiting)) ∧
    (∀ e, s.unit u = .offering (.error e) → collect u s = .raised e (s.setUnit u .awaiting)) := by
  constructor <;> intro x h <;>
    simp [collect, unitEvent, unitTakeResult, unitTakeError, unitTaken, h, UnitState.offering]

/-- A complete operation is the computation of the unit, and the unit waits again. -/
theorem operate_eq {u : UnitId} {code : BitVec 8} {args : List (BitVec 32)} {s : State} (h : s.unit u = .awaiting)
    (hacc : unitAccepts u code s = true) (hlen : args.length = unitArity u) : operate u code args s = unitCompute u code args s := by
  have hne : args ≠ [] := by rintro rfl; cases u <;> simp [unitArity] at hlen
  have ho : offer u (.operation code) s = .done () (s.setUnit u (.receiving code [])) := by
    simp [offer, unitEvent, unitOperation, h, hacc, UnitState.awaiting, UnitState.receiving]
  have hs := offerOperands_receiving (code := code) args [] (s.setUnit u (.receiving code [])) hne (by simpa using hlen)
    (by simp) (by simpa using hacc)
  simp only [List.length_nil, Nat.zero_add, List.nil_append] at hs
  simp only [operate, ho, Res.andThen_done, hs, unitCompute_setUnit]
  cases hc : unitCompute u code args s with
  | done r t =>
    have hu : t.unit u = .awaiting := (congrArg (fun us => us.get u) ((unitCompute_units).1 r hc)).trans h
    simp only [Res.mapState_done, offered, State.setUnit_setUnit, Res.andThen_done]
    rw [collect_offering.1 r (by simp), State.setUnit_setUnit, ← hu, State.setUnit_unit]
  | raised e t =>
    have hu : t.unit u = .awaiting := (congrArg (fun us => us.get u) ((unitCompute_units).2 e hc)).trans h
    simp only [Res.mapState_raised, offered, State.setUnit_setUnit, Res.andThen_done]
    rw [collect_offering.2 e (by simp), State.setUnit_setUnit, ← hu, State.setUnit_unit]
  | hung why => rfl

/-! ### The operations the integrator issues, in a core whose units all wait -/

theorem unit_of_units {s : State} (h : s.units = Units.all .awaiting) (u : UnitId) : s.unit u = .awaiting := by
  simp only [State.unit, h]; cases u <;> rfl

theorem operandWord_setWidth (v : Word) (rest : List (BitVec 32)) : operandWord (v.setWidth 32 :: rest) 0 = v := by
  simp [operandWord, operandAt]

theorem operandWord_setWidth_one (x : BitVec 32) (v : Word) (rest : List (BitVec 32)) :
    operandWord (x :: v.setWidth 32 :: rest) 1 = v := by
  simp [operandWord, operandAt]

theorem operandWord_setWidth_two (x y : BitVec 32) (v : Word) (rest : List (BitVec 32)) :
    operandWord (x :: y :: v.setWidth 32 :: rest) 2 = v := by
  simp [operandWord, operandAt]

theorem operandWord_setWidth_three (x y z : BitVec 32) (v : Word) (rest : List (BitVec 32)) :
    operandWord (x :: y :: z :: v.setWidth 32 :: rest) 3 = v := by
  simp [operandWord, operandAt]

theorem rfRead_eq {s : State} (h : s.units = Units.all .awaiting) (i : RegIdx) : rfRead i s = .done (s.reg i) s := by
  have ho : operate .rf 0#8 [i.setWidth 32, 0#32] s = _ := operate_eq (unit_of_units h .rf) rfl rfl
  simp only [rfRead, ho, unitCompute]
  simp [rfCompute, codeBit, operandAt, resultWord]

theorem rfWrite_eq {s : State} (h : s.units = Units.all .awaiting) (i : RegIdx) (v : Word) :
    rfWrite i v s = writeReg i v s := by
  have ho : operate .rf 1#8 [i.setWidth 32, v.setWidth 32] s = _ := operate_eq (unit_of_units h .rf) rfl rfl
  simp only [rfWrite, ho, unitCompute, rfCompute, operandWord_setWidth_one]
  have hi : (operandAt [i.setWidth 32, v.setWidth 32] 0).setWidth 8 = i := by simp [operandAt]
  simp only [hi, show codeBit 1#8 = true from rfl, if_true]
  cases writeReg i v s <;> rfl

theorem memCodeLoad_eq {s : State} (h : s.units = Units.all .awaiting) (a : Word) : memCodeLoad a s = codeRead a s := by
  have ho : operate .memCode 0#8 [a.setWidth 32, 0#32] s = _ := operate_eq (unit_of_units h .memCode) rfl rfl
  simp only [memCodeLoad, ho, unitCompute, memCodeCompute, operandWord_setWidth, show codeBit 0#8 = false from rfl, codeRead]
  by_cases hc : s.config.codeSize ≤ a.toNat <;> simp [hc, resultCell]

theorem decDecode_eq {s : State} (h : s.units = Units.all .awaiting) (w : Cell32) :
    decDecode w s = .done (decodeFields w) s := by
  have ho : operate .dec 0#8 [w] s = _ := operate_eq (unit_of_units h .dec) rfl rfl
  simp only [decDecode, ho, unitCompute]
  simp [decCompute, codeBit, operandAt, resultRecord]

theorem memLoad_data_eq {s : State} (h : s.units = Units.all .awaiting) (a : Word) : memLoad .memData a s = memRead a s := by
  have ho : operate .memData 0#8 [a.setWidth 32, 0#32] s = _ := operate_eq (unit_of_units h .memData) rfl rfl
  simp only [memLoad, ho, unitCompute, memDataCompute, operandWord_setWidth,
    show codeBit 0#8 = false from rfl]
  cases memRead a s <;> simp [resultWord]

theorem memStore_data_eq {s : State} (h : s.units = Units.all .awaiting) (a v : Word) :
    memStore .memData a v s = memWrite a v s := by
  have ho : operate .memData 1#8 [a.setWidth 32, v.setWidth 32] s = _ := operate_eq (unit_of_units h .memData) rfl rfl
  simp only [memStore, ho, unitCompute, memDataCompute, operandWord_setWidth,
    operandWord_setWidth_one, show codeBit 1#8 = true from rfl, if_true]
  cases memWrite a v s <;> rfl

/-- The unit of a stack's segment. -/
def stackUnit : StackId → UnitId
  | .dataStack => .memStack
  | .callStack => .memCall

theorem memLoad_stack_eq {s : State} (h : s.units = Units.all .awaiting) (k : StackId) (a : Word) :
    memLoad (stackUnit k) a s =
      if s.size (stackSegment k) ≤ a.toNat then .raised (.addressOutOfRange (stackSegment k) a) s
      else .done ((s.mem (stackSegment k)).readWord a.toNat) s := by
  have ho : operate (stackUnit k) 0#8 [a.setWidth 32, 0#32] s = _ :=
    operate_eq (unit_of_units h _) (by cases k <;> rfl) (by cases k <;> rfl)
  simp only [memLoad, ho]
  cases k <;>
    (simp only [stackUnit, unitCompute, memStackCompute, operandWord_setWidth, show codeBit 0#8 = false from rfl]
     split <;> simp [resultWord])

theorem memStore_stack_eq {s : State} (h : s.units = Units.all .awaiting) (k : StackId) (a v : Word) :
    memStore (stackUnit k) a v s =
      if s.size (stackSegment k) ≤ a.toNat then .raised (.addressOutOfRange (stackSegment k) a) s
      else .done () (s.setMem (stackSegment k) ((s.mem (stackSegment k)).writeWord a.toNat v)) := by
  have ho : operate (stackUnit k) 1#8 [a.setWidth 32, v.setWidth 32] s = _ :=
    operate_eq (unit_of_units h _) (by cases k <;> rfl) (by cases k <;> rfl)
  simp only [memStore, ho]
  cases k <;>
    (simp only [stackUnit, unitCompute, memStackCompute, operandWord_setWidth, operandWord_setWidth_one,
       show codeBit 1#8 = true from rfl, if_true]
     split <;> simp)

end Sys2Proof.Machine
end

