-- ==== Sys2Proof/Tests/Slice0.lean ====
section
/-! SUPPORT. Tests on fixed values: the checks of WellFormed, words of the encoding tables, the vectors of
spec/95_test_vectors.md by their ids, and a witness for the hypotheses of every statement that has some. -/

namespace Sys2Proof.Tests

open Sys2Proof Sys2Proof.Machine Sys2Proof.Statements

/-! ### Helpers: what a vector's start and end say -/

/-- Register `n` holds `v`. -/
def reg (n v : Nat) (s : State) : State := s.setReg (BitVec.ofNat 8 n) (BitVec.ofNat 16 v)

/-- The 16-bit cell `a` of a segment holds `v`. -/
def cell (seg : Segment) (a v : Nat) (s : State) : State := s.setMem seg ((s.mem seg).writeWord a (BitVec.ofNat 16 v))

/-- A segment has `n` cells. -/
def size (seg : Segment) (n : Nat) (s : State) : State :=
  match seg with
  | .code => { s with config := { s.config with codeSize := n } }
  | .data => { s with config := { s.config with dataSize := n } }
  | .stack => { s with config := { s.config with stackSize := n } }
  | .call => { s with config := { s.config with callSize := n } }

/-- `UNTAKEN_CALL_PUSHES` is false. -/
def noUntakenPush (s : State) : State := { s with config := { s.config with untakenCallPushes := false } }

/-- A device at `[first, last]` with the given answers. -/
def answering (first last : Nat) (script : List DeviceAnswer) : Device :=
  { first := BitVec.ofNat 16 first, last := BitVec.ofNat 16 last, script := script, startup := none, shutdown := none }

/-- A device registered. -/
def withDevice (dev : Device) (s : State) : State := { s with config := { s.config with devices := s.config.devices ++ [dev] } }

/-- A device registered whose first answers are ok, with the Word `v`. -/
def device (first last v : Nat) : State → State :=
  withDevice (answering first last [.ok (BitVec.ofNat 16 v), .ok (BitVec.ofNat 16 v)])

/-- The devices have seen these accesses. -/
def sees (accesses : List IoAccess) (s : State) : State := { s with io := s.io ++ accesses }

/-- The output sink has taken `c`. -/
def emitted (c : Nat) (s : State) : State := s.emit (BitVec.ofNat 32 c)

/-- The core has halted without an error. -/
def halts (s : State) : State := { s with halted := true }

/-- Changes made in order. -/
def changed : List (State → State) → State → State
  | [], s => s
  | f :: rest, s => changed rest (f s)

/-- The end column of a vector. -/
inductive Expected where
  | goesTo (changes : List (State → State))
  | fails (e : Machine.Error)

/-- The next state of a result. -/
def nextState : Result → Option State
  | .next t => some t
  | _ => none

/-- The fault of a result. -/
def faultOf : Result → Option Fault
  | .fault why => some why
  | _ => none

/-- The state a vector expects, from its start. -/
def Expected.state (s : State) : Expected → State
  | .goesTo changes => changed changes { s with started := true }
  | .fails e => State.takeError e { s with started := true }

/-- Equal in registers 0 to 15 (the only ones the vectors name) and in every other field. -/
def sameState (s t : State) : Bool :=
  (List.range 16).all (fun n => s.reg (BitVec.ofNat 8 n) == t.reg (BitVec.ofNat 8 n))
    && decide (s.code = t.code) && decide (s.data = t.data) && decide (s.stack = t.stack) && decide (s.call = t.call)
    && decide (s.config = t.config) && decide (s.error = t.error) && decide (s.out = t.out) && decide (s.io = t.io)
    && s.advancePc == t.advancePc && s.halted == t.halted && s.started == t.started && decide (s.lifecycle = t.lifecycle) && decide (s.units = t.units)

/-- From reset with the start's changes, the step that runs `word` ends in exactly the expected state. -/
def vector (start : List (State → State)) (word : Nat) (expected : Expected) : Bool :=
  let s := (changed start State.reset).withFetchWord 32 word
  match nextState (step s) with
  | some t => sameState t (expected.state s)
  | none => false

/-! ### WellFormed refuses -/

/-- Values wider than their fields (30_encoding.md R107). -/
theorem test_wide_fields_refused :
    ({ group := 8, op := 0, data0 := 0, data1 := 0, data2 := 0 } : FieldValues).wellFormed = false ∧
    ({ group := 0, op := 32, data0 := 0, data1 := 0, data2 := 0 } : FieldValues).wellFormed = false ∧
    ({ group := 0, op := 0, data0 := 256, data1 := 0, data2 := 0 } : FieldValues).wellFormed = false ∧
    ({ group := 0, op := 0, data0 := 0, data1 := 256, data2 := 0 } : FieldValues).wellFormed = false ∧
    ({ group := 0, op := 0, data0 := 0, data1 := 0, data2 := 256 } : FieldValues).wellFormed = false ∧
    encodeChecked { group := 8, op := 0, data0 := 0, data1 := 0, data2 := 0 } = none := by
  decide

/-- Segment sizes outside 1 to 65536 (00_scope.md R6). -/
theorem test_sizes_refused :
    (size .code 0 State.reset).config.wellFormed = false ∧ (size .data 65537 State.reset).config.wellFormed = false ∧
    (size .stack 0 State.reset).config.wellFormed = false ∧ (size .call 65537 State.reset).config.wellFormed = false := by
  decide

/-- A reversed range, and the source's overlapping pair (45_io_registry.md R286, R288). -/
theorem test_devices_refused :
    (answering 0x30 0x2F []).wellFormed = false ∧
    devicesWellFormed [answering 0x10 0x1F [], answering 0x15 0x25 []] = false := by
  decide

/-- An instruction's operands fit by their types (10_state.md R24). -/
theorem test_operands_accepted : (Instr.add 255 0 1).wellFormed = true ∧ (Instr.pushI 0xFFFF).wellFormed = true := by decide

/-- A built-in selector, and one selector registered twice (92_eei_decisions.md D25). -/
theorem test_system_calls_refused :
    syscallExtWellFormed [{ selector := 2, call := .terminate }] = false ∧
    syscallExtWellFormed [{ selector := 7, call := .putc }, { selector := 7, call := .panic }] = false := by
  decide

/-! ### Words -/

/-- Words of the examples in the rules of the arithmetic group. -/
theorem test_decode_arithmetic_1 :
    decode 0x03020200#32 = .instr (.add 2 2 3) ∧
    decode 0x03020408#32 = .instr (.sub 4 2 3) ∧
    decode 0x03020410#32 = .instr (.mul 4 2 3) ∧
    decode 0x03020418#32 = .instr (.div 4 2 3) ∧
    decode 0x03020420#32 = .instr (.rem 4 2 3) ∧
    decode 0x03020428#32 = .instr (.shl 4 2 3) ∧
    decode 0x03020430#32 = .instr (.shr 4 2 3) ∧
    decode 0x03020438#32 = .instr (.and 4 2 3) ∧
    decode 0x03020440#32 = .instr (.or 4 2 3) ∧
    decode 0x00020448#32 = .instr (.not 4 2) ∧
    decode 0x03020450#32 = .instr (.xor 4 2 3) ∧
    decode 0x00020258#32 = .instr (.inc 2 2) := by
  decide

/-- Words of the examples in the rules of the arithmetic group. -/
theorem test_decode_arithmetic_2 :
    decode 0x00020460#32 = .instr (.dec 4 2) ∧
    decode 0x00020468#32 = .instr (.double 4 2) ∧
    decode 0x00020470#32 = .instr (.halve 4 2) ∧
    decode 0x01020478#32 = .instr (.addi 4 0x102) ∧
    decode 0x01020480#32 = .instr (.subi 4 0x102) ∧
    decode 0x01020488#32 = .instr (.muli 4 0x102) ∧
    decode 0x01020490#32 = .instr (.divi 4 0x102) ∧
    decode 0x01020498#32 = .instr (.remi 4 0x102) ∧
    decode 0x000405A0#32 = .instr (.shli 5 0x4) ∧
    decode 0x000405A8#32 = .instr (.shri 5 0x4) := by
  decide

/-- Words of the examples in the rules of the move group. -/
theorem test_decode_move_1 :
    decode 0x00020401#32 = .instr (.move 4 2) ∧
    decode 0x00020409#32 = .instr (.swap 4 2) ∧
    decode 0x00020411#32 = .instr (.swapRm 4 2) ∧
    decode 0x00020419#32 = .instr (.swapMm 4 2) ∧
    decode 0x00100421#32 = .instr (.swapRi 4 0x10) ∧
    decode 0x00100429#32 = .instr (.swapMi 4 0x10) ∧
    decode 0x00050231#32 = .instr (.set 2 0x5) ∧
    decode 0x00010539#32 = .instr (.load 5 1) ∧
    decode 0x00100541#32 = .instr (.loadI 5 0x10) ∧
    decode 0x00020449#32 = .instr (.store 4 2) ∧
    decode 0x00020451#32 = .instr (.storeM 4 2) ∧
    decode 0x00100459#32 = .instr (.storeIa 4 0x10) := by
  decide

/-- Words of the examples in the rules of the move group. -/
theorem test_decode_move_2 :
    decode 0x12340161#32 = .instr (.storeIv 1 0x1234) ∧
    decode 0x00020069#32 = .instr (.push 2) ∧
    decode 0x12340071#32 = .instr (.pushI 0x1234) ∧
    decode 0x00000479#32 = .instr (.pop 4) ∧
    decode 0x00000481#32 = .instr (.peek 4) := by
  decide

/-- Words of the examples in the rules of the compare group. -/
theorem test_decode_compare_1 :
    decode 0x03020002#32 = .instr (.eq 2 3) ∧
    decode 0x0302000A#32 = .instr (.eqAnd 2 3) ∧
    decode 0x03020012#32 = .instr (.eqOr 2 3) ∧
    decode 0x0302001A#32 = .instr (.eqXor 2 3) ∧
    decode 0x03020022#32 = .instr (.neq 2 3) ∧
    decode 0x0302002A#32 = .instr (.neqAnd 2 3) ∧
    decode 0x03020032#32 = .instr (.neqOr 2 3) ∧
    decode 0x0302003A#32 = .instr (.neqXor 2 3) ∧
    decode 0x03020042#32 = .instr (.lt 2 3) ∧
    decode 0x0302004A#32 = .instr (.ltAnd 2 3) ∧
    decode 0x03020052#32 = .instr (.ltOr 2 3) ∧
    decode 0x0302005A#32 = .instr (.ltXor 2 3) := by
  decide

/-- Words of the examples in the rules of the compare group. -/
theorem test_decode_compare_2 :
    decode 0x03020062#32 = .instr (.gt 2 3) ∧
    decode 0x0302006A#32 = .instr (.gtAnd 2 3) ∧
    decode 0x03020072#32 = .instr (.gtOr 2 3) ∧
    decode 0x0302007A#32 = .instr (.gtXor 2 3) ∧
    decode 0x03020082#32 = .instr (.le 2 3) ∧
    decode 0x0302008A#32 = .instr (.leAnd 2 3) ∧
    decode 0x03020092#32 = .instr (.leOr 2 3) ∧
    decode 0x0302009A#32 = .instr (.leXor 2 3) ∧
    decode 0x030200A2#32 = .instr (.ge 2 3) ∧
    decode 0x030200AA#32 = .instr (.geAnd 2 3) ∧
    decode 0x030200B2#32 = .instr (.geOr 2 3) ∧
    decode 0x030200BA#32 = .instr (.geXor 2 3) := by
  decide

/-- Words of the examples in the rules of the jump group. -/
theorem test_decode_jump_1 :
    decode 0x01000003#32 = .instr (.bI 0x100) ∧
    decode 0x0100000B#32 = .instr (.callI 0x100) ∧
    decode 0x00040013#32 = .instr (.bR 4) ∧
    decode 0x0004001B#32 = .instr (.callR 4) ∧
    decode 0x01000023#32 = .instr (.btI 0x100) ∧
    decode 0x0100002B#32 = .instr (.calltI 0x100) ∧
    decode 0x00040033#32 = .instr (.btR 4) ∧
    decode 0x0004003B#32 = .instr (.calltR 4) ∧
    decode 0x01000043#32 = .instr (.bfI 0x100) ∧
    decode 0x0100004B#32 = .instr (.callfI 0x100) ∧
    decode 0x00040053#32 = .instr (.bfR 4) ∧
    decode 0x0004005B#32 = .instr (.callfR 4) := by
  decide

/-- Words of the examples in the rules of the jump group. -/
theorem test_decode_jump_2 :
    decode 0x05040063#32 = .instr (.iteT 4 5) ∧
    decode 0x0504006B#32 = .instr (.iteF 4 5) ∧
    decode 0x05040073#32 = .instr (.itecallT 4 5) ∧
    decode 0x0504007B#32 = .instr (.itecallF 4 5) ∧
    decode 0x00000083#32 = .instr .ret := by
  decide

/-- Words of the examples in the rules of the misc group. -/
theorem test_decode_misc_1 :
    decode 0x00000004#32 = .instr .syscallTerminate ∧
    decode 0x00FF0104#32 = .instr (.syscallPanic 0xFF) ∧
    decode 0x02020204#32 = .instr (.syscallPutc 2 2) := by
  decide

/-- Fewer than four bytes are no instruction. -/
theorem test_truncated_bytes : decodeBytes [0x00, 0x02, 0x02] = .truncated := by decide

/-- The bytes of program P1's third word, in stream order (spec/95_test_vectors.md). -/
theorem test_bytes_in_stream_order : decodeBytes [0x00, 0x02, 0x02, 0x03, 0x04] = .instr (.add 2 2 3) [0x04] := by decide

/-- The encoder writes the words of the rules' examples. -/
theorem test_encode :
    encode (.sub 4 2 3) = 0x03020408#32 ∧ encode (.set 2 5) = 0x00050231#32 ∧ encode (.push 2) = 0x00020069#32 ∧
    encode (.geXor 2 3) = 0x030200BA#32 ∧ encode (.calltI 0x0100) = 0x0100002B#32 ∧
    encode (.syscallPutc 2 3) = 0x03020204#32 := by
  decide

/-! ### Devices, images, reset (spec/95_test_vectors.md, 2.7 to 2.9) -/

/-- A core whose devices are `devices`. -/
def withDevices (devices : List Device) : State := changed (devices.map withDevice) State.reset

/-- Whether a platform operation is refused, and why. -/
def refusalOf {α : Type} : PlatformResult α → Option PlatformRefusal
  | .ok _ => none
  | .refused why => some why

/-- The devices after a registration. -/
def devicesAfter : PlatformResult State → List Device
  | .ok s => s.config.devices
  | .refused _ => []

/-- The device list A, B of the vectors. -/
def listAB : List Device := [answering 0x10 0x1F [], answering 0x20 0x2F []]

/-- Vectors IO1, IO2, IO5. -/
theorem test_IO1_IO2_IO5 :
    devicesAfter (State.reset.register (answering 0x10 0x1F [])) = [answering 0x10 0x1F []] ∧
    devicesAfter ((withDevices [answering 0x10 0x1F []]).register (answering 0x20 0x2F [])) = listAB ∧
    devicesAfter ((withDevices listAB).register (answering 0x00 0x0F [])) = listAB ++ [answering 0x00 0x0F []] := by
  decide

/-- Vectors IO3, IO4, IO6, IO7. -/
theorem test_IO3_IO4_IO6_IO7 :
    refusalOf ((withDevices listAB).register (answering 0x15 0x25 [])) = some (.setupError .overlappingDevice) ∧
    refusalOf ((withDevices listAB).register (answering 0x1F 0x1F [])) = some (.setupError .overlappingDevice) ∧
    refusalOf ((withDevices listAB).register (answering 0x00 0xFFFF [])) = some (.setupError .overlappingDevice) ∧
    refusalOf ((withDevices listAB).register (answering 0x30 0x2F [])) = some .badRange := by
  decide

/-- Vector IO8. -/
theorem test_IO8 :
    [0xFF0F#16, 0xFF10#16, 0xFF1F#16, 0xFF20#16].map (registryLookup [answering 0xFF10 0xFF1F []]) =
      [none, some (answering 0xFF10 0xFF1F []), some (answering 0xFF10 0xFF1F []), none] := by
  decide

/-- Vector IO9: RAM wins. -/
theorem test_IO9 :
    vector [reg 2 0x0010, cell .data 0x0010 0x1234, device 0x10 0x1F 0x9999] 0x00020539
      (.goesTo [reg 5 0x1234, reg 8 0x0001]) = true := by
  decide

/-- Vector IO10: the access has happened, the register is not written. -/
theorem test_IO10 :
    let s := (changed [reg 2 0xFF10, withDevice (answering 0xFF10 0xFF1F [.error 7])] State.reset).withFetchWord 32 0x00020539
    ((nextState (step s)).map fun t => sameState t (State.takeError (.deviceError 0xFF10 7)
      (sees [.load 0xFF10] { s with started := true }))) = some true := by
  decide

/-- Vector IO11. -/
theorem test_IO11 :
    let x := answering 0x10 0x1F []
    let y := { answering 0x20 0x2F [] with startup := some 3 }
    let z := answering 0x30 0x3F []
    (withDevices [x, y, z]).startupAll = { called := [x, y], failure := some 3 } := by
  decide

/-- The configuration of vectors L4 to L7. -/
def smallCore : State := changed [size .code 2, size .data 2, size .stack 1, size .call 1] State.reset

/-- The image of vectors L4 to L7. -/
def smallImage : List Byte :=
  [0x04, 0x00, 0x00, 0x00, 0x78, 0x56, 0x34, 0x12, 0x01, 0x00, 0xFF, 0xFF, 0xAA, 0x55, 0x11, 0x22]

/-- Vectors L4, L6: the cells, and the image dumped again. -/
theorem test_L4_L6 :
    (match smallCore.loadImage smallImage with
      | .ok t => t.code.readCell 0 == 0x00000004#32 && t.code.readCell 1 == 0x12345678#32 && t.data.readWord 0 == 0x0001#16
          && t.data.readWord 1 == 0xFFFF#16 && t.stack.readWord 0 == 0x55AA#16 && t.call.readWord 0 == 0x2211#16
          && t.dump == smallImage
      | .refused _ => false) = true := by
  decide

/-- Vector L5. -/
theorem test_L5 :
    refusalOf (smallCore.loadImage (smallImage ++ [0x00])) = some .wrongLength ∧
    refusalOf (smallCore.loadImage (smallImage.take 15)) = some .wrongLength := by
  decide

/-- Vector L7. -/
theorem test_L7 :
    (match smallCore.loadImage smallImage with
      | .ok t => (nextState (step t)).map fun u => u.halted && u.ip == 1#16 && u.error.isNone && u.dump == smallImage
      | .refused _ => none) = some true := by
  decide

/-- Vector RS1, the specified part. -/
theorem test_RS1 :
    let s := changed [reg 8 3, State.takeError .divideByZero] State.reset
    sameState (s.hostReset Launch.reference) State.reset = true := by
  decide

/-- Vector RS2. -/
theorem test_RS2 : vector [] 0x00000000 (.fails (.writeProtected 0)) = true := by decide

/-- Vector RS3. -/
theorem test_RS3 : ((nextState (step (halts State.reset))).map fun t => sameState t (halts State.reset)) = some true := by decide

/-- A device that never answers blocks the step (spec/93_implementation_defined.md U20). -/
theorem test_never :
    faultOf (step ((changed [reg 2 0xFF10, withDevice (answering 0xFF10 0xFF1F [.never])] State.reset).withFetchWord 32
      0x00020539)) = some (.deviceNeverAnswers 0xFF10) := by
  decide

/-! ### Bring-up, registered system calls, error codes -/

/-- A system call registered. -/
def withSystemCall (selector : Byte) (call : SystemCall) (s : State) : State :=
  { s with config := { s.config with syscallExt := { selector := selector, call := call } :: s.config.syscallExt } }

/-- A registered selector runs the rule it names (44_misc_syscall.md R270): the words of vectors S10 and S11. -/
theorem test_registered_system_calls :
    vector [withSystemCall 3 .terminate] 0x00000304 (.goesTo [reg 8 0x0001, halts]) = true ∧
    vector [withSystemCall 255 .panic] 0x1234FF04 (.fails (.panic 0x1234)) = true ∧
    vector [withSystemCall 7 .putc, reg 2 0xF600, reg 3 1] 0x03020704 (.goesTo [reg 8 0x0001, emitted 0x1F600]) = true ∧
    vector [withSystemCall 7 .putc] 0x03020804 (.fails (.invalidSystemCommand 8)) = true := by
  decide

/-- System calls registered at setup: a built-in is never replaced, an earlier entry is, and none after the first step. -/
theorem test_register_system_call :
    refusalOf (State.reset.registerSystemCall { selector := 2, call := .platform }) = some .builtInSelector ∧
    (match (withSystemCall 7 .putc State.reset).registerSystemCall { selector := 7, call := .platform } with
      | .ok t => t.config.syscallExt == [{ selector := 7, call := .platform }]
      | .refused _ => false) = true ∧
    refusalOf (({ State.reset with started := true } : State).registerSystemCall { selector := 7, call := .putc }) =
      some .coreStarted := by
  decide

/-- A device whose startup fails. -/
def startupFails : Device := { answering 0x20 0x2F [] with startup := some 3 }

/-- A failed startup leaves the core in its reset state, not halted with an error, its units idle; it does not start
(45_io_registry.md R291). -/
theorem test_failed_startup :
    let b := bringUp smallCore.config [answering 0x10 0x1F [], startupFails, answering 0x30 0x3F []] Launch.reference none
    b.refusal = some (.hookFailed 3) ∧ b.called = [answering 0x10 0x1F [], startupFails] ∧
    b.core.halted = false ∧ b.core.error = none ∧ b.core.started = false ∧ b.core.units = Units.all .created ∧
    b.core.dump = smallCore.dump ∧ refusalOf b.core.startRun = some .notStartedUp ∧
    refusalOf b.core.callStartup = some .hookAlreadyCalled := by
  decide

/-- A successful bring-up: devices in order, image loaded, units waiting, startup called once. -/
theorem test_bring_up :
    let b := bringUp smallCore.config [answering 0x10 0x1F []] Launch.reference (some smallImage)
    b.refusal = none ∧ b.called = [answering 0x10 0x1F []] ∧ b.core.dump = smallImage ∧
    b.core.units = Units.all .awaiting ∧ refusalOf b.core.startRun = none ∧
    refusalOf b.core.callStartup = some .hookAlreadyCalled := by
  decide

/-- A refused registration stops bring-up, with the devices registered so far (log 26). -/
theorem test_refused_registration :
    let b := bringUp smallCore.config [answering 0x10 0x1F [], answering 0x1F 0x2F [], answering 0x30 0x3F []]
      Launch.reference none
    b.refusal = some (.setupError .overlappingDevice) ∧ b.core.config.devices = [answering 0x10 0x1F []] := by
  decide

/-- After the halt the hooks are called once, and units stopped already are not stopped again (47_functional_units.md R353). -/
theorem test_after_halt :
    (match (halts State.reset).afterHalt with
      | .ok (t, run) => decide (t.units = Units.all .created) && run.failure.isNone
          && decide (refusalOf t.afterHalt = some .hookAlreadyCalled)
      | .refused _ => false) = true ∧
    (controlUnits .stop (allUnits.filter fun u => ((halts State.reset).unit u).running) State.reset).2 = [] := by
  decide

/-- Codes and payloads of 60_exceptions.md R371. -/
theorem test_error_codes :
    (Error.writeProtected 1).code = 2 ∧ (Error.addressOutOfRange .stack 0x100).code = 11 ∧ (Error.panic 0xBEEF).code = 14 ∧
    (Error.deviceError 0xFF10 9).code = 17 ∧ (Error.panic 0xBEEF).payload = .word 0xBEEF := by
  decide

/-! ### Functional units (spec/95_test_vectors.md, 2.10) -/

/-- A core whose units all wait for an operation. -/
def ready : State := { State.reset with units := Units.all .awaiting }

/-- What an event answers: nothing where it waits. -/
def answers : Reaction → Option (Option ControlReply × Option UnitOutcome)
  | .happened reply outcome _ => some (reply, outcome)
  | _ => none

/-- The events offered in order to unit `u`: the answers, and the unit at the end. -/
def offered (u : UnitId) : List UnitEvent → State → List (Option (Option ControlReply × Option UnitOutcome)) × UnitState
  | [], s => ([], s.unit u)
  | ev :: rest, s =>
    match unitEvent u ev s with
    | .happened reply outcome t => (some (reply, outcome) :: (offered u rest t).1, (offered u rest t).2)
    | _ => (none :: (offered u rest s).1, (offered u rest s).2)

/-- Vectors H1, H2. -/
theorem test_H1_H2 :
    offered .alu [.stop] State.reset = ([some (some (.failed .unitNotRunning), none)], .created) ∧
    offered .rf [.start, .start] State.reset =
      ([some (some .ok, none), some (some (.failed .unitAlreadyRunning), none)], .awaiting) := by
  decide

/-- Vectors H3, H4. -/
theorem test_H3_H4 :
    offered .sys [.start, .stop, .start] State.reset =
      ([some (some .ok, none), some (some .ok, none), some (some .ok, none)], .awaiting) ∧
    offered .bru [.start, .stop, .stop] State.reset =
      ([some (some .ok, none), some (some .ok, none), some (some (.failed .unitNotRunning), none)], .created) := by
  decide

/-- Vectors H5, H8. -/
theorem test_H5_H8 :
    offered .alu [.operation 0, .start, .operation 0, .operand 1 5, .stop, .takeResult, .takeError] State.reset =
      ([none, some (some .ok, none), some (none, none), some (none, none), some (some .ok, none), none, none], .created) := by
  decide

/-- Vector H6. -/
theorem test_H6 :
    offered .alu [.operation 0, .operand 1 5, .operand 2 3, .stop, .takeError, .takeResult, .takeResult] ready =
      ([some (none, none), some (none, none), some (none, none), some (none, none), none,
        some (some .ok, some (.result (.word 8))), none], .created) := by
  decide

/-- Vector H7. -/
theorem test_H7 :
    offered .rf [.stop, .start, .operation 0, .operand 1 4, .operand 2 0, .takeResult] (reg 4 0x1234 ready) =
      ([some (some .ok, none), some (some .ok, none), some (none, none), some (none, none), some (none, none),
        some (none, some (.result (.word 0x1234)))], .awaiting) := by
  decide

/-- The outcome of one complete operation. -/
def operated (u : UnitId) (code : BitVec 8) (args : List (BitVec 32)) (s : State) : Option UnitOutcome :=
  match operate u code args s with
  | .done r _ => some (.result r)
  | .raised e _ => some (.error e)
  | .hung _ => none

/-- Vectors F1 to F5. -/
theorem test_F1_to_F5 :
    operated .rf 0 [4, 0xFFFF] (reg 4 0x1234 ready) = some (.result (.word 0x1234)) ∧
    operated .rf 0 [1, 0] ready = some (.result (.word 1)) ∧
    operated .rf 1 [4, 0xBEEF] ready = some (.result (.word 0xBEEF)) ∧
    operated .rf 1 [0, 0] ready = some (.error (.writeProtected 0)) ∧
    operated .dec 0 [0x12345678] ready =
      some (.result (.record { group := 0, op := 15, data0 := 0x56, data1 := 0x34, data2 := 0x12 })) := by
  decide

/-- Vectors F6 to F11. -/
theorem test_F6_to_F11 :
    operated .alu 0 [0xFFFF, 2] ready = some (.result (.word 1)) ∧
    operated .alu 18 [9, 0] ready = some (.error .divideByZero) ∧
    operated .alu 9 [0x00FF, 0x1234] ready = some (.result (.word 0xFF00)) ∧
    operated .alu 22 [1, 1] ready = some (.error (.notImplemented 22)) ∧
    operated .cmp 1 [0x1234, 5, 5] ready = some (.result (.word 1)) ∧
    operated .cmp 24 [0, 0, 0] ready = some (.error (.invalidCompareOperation 24)) := by
  decide

/-- Vectors F12 to F17. -/
theorem test_F12_to_F17 :
    operated .bru 1 [0x10, 0, 0x100, 0] ready = some (.result (.branch false true 0x100)) ∧
    operated .bru 5 [0x10, 0, 0x100, 0] ready = some (.result (.branch false true 0x11)) ∧
    operated .bru 5 [0x10, 0, 0x100, 0] (noUntakenPush ready) = some (.result (.branch false false 0x11)) ∧
    operated .bru 12 [0x10, 0, 0x100, 0x200] ready = some (.result (.branch false false 0x200)) ∧
    operated .bru 16 [1, 2, 3, 4] ready = some (.result (.branch true false 0)) ∧
    operated .bru 17 [1, 2, 3, 4] ready = some (.error (.illegalJumpOperation 17)) := by
  decide

/-- Vectors F18 to F20. -/
theorem test_F18_to_F20 :
    operated .memData 0 [0xFF00, 0] ready = some (.error (.unmappedIoAddress 0xFF00)) ∧
    operated .memStack 1 [0x100, 1] (size .stack 0x100 ready) = some (.error (.addressOutOfRange .stack 0x100)) ∧
    operated .memData 1 [0x40, 0x5678] ready = some (.result (.word 0x5678)) ∧
    operated .memData 0 [0x40, 0] (cell .data 0x40 0x5678 ready) = some (.result (.word 0x5678)) := by
  decide

/-- Vectors F21 to F25. -/
theorem test_F21_to_F25 :
    operated .sys 0 [0, 0, 0, 1] ready = some (.result (.sys true false 0)) ∧
    operated .sys 1 [0xBEEF, 0, 0, 1] ready = some (.error (.panic 0xBEEF)) ∧
    operated .sys 2 [9, 0x1241, 0x1241, 1] ready = some (.result (.sys false true 0x41)) ∧
    operated .sys 2 [9, 0xF600, 1, 0] ready = some (.result (.sys false true 0x1F600)) ∧
    operated .sys 3 [0, 0, 0, 0] ready = some (.error (.invalidSystemCommand 3)) := by
  decide

/-- A Store offered to MEM.code is taken until the first step and waits from then on (47_functional_units.md R338; log 25). -/
theorem test_code_store :
    operated .memCode 1 [0, 0x12345678] ready = some (.result (.cell 0x12345678)) ∧
    offered .memCode [.operation 1, .operation 0] { ready with started := true } =
      ([none, some (none, none)], { running := true, phase := .awaitOperand 0 [], stopping := false }) := by
  decide

/-- The integrator's own check stops the Write of a protected register, `DivideByZero` first (47_functional_units.md R351). -/
theorem test_composed_write_protected :
    (((nextState (composedStep (ready.withFetchWord 32 0x03020000))).map fun t => t.error) = some (some (.writeProtected 0))) ∧
    (((nextState (composedStep (ready.withFetchWord 32 0x03020018))).map fun t => t.error) = some (some .divideByZero)) := by
  decide

/-- A registered system call in the composed core. -/
theorem test_composed_system_call :
    ((nextState (composedStep ((withSystemCall 7 .putc (reg 2 0x41 ready)).withFetchWord 32 0x02020704))).map fun t => t.out) =
      some [0x41#32] := by
  decide

/-- The composed `add r2, r2, r3` at `ip = 2` (spec/95_test_vectors.md, end of section 2.10). -/
theorem test_composed_add :
    let s := (changed [reg 2 5, reg 3 3, reg 8 2] ready).withFetchWord 32 0x03020200
    ((nextState (composedStep s)).map fun t => sameState t (changed [reg 2 8, reg 8 3] { s with started := true })) =
      some true := by
  decide

/-! ### Vectors (spec/95_test_vectors.md, 2.1 to 2.6), and the compares its vectors leave out, from 42_compare.md R201 -/

/-- Vector A1: `add r4, r2, r3`. -/
theorem test_A1 : vector [reg 2 0xFFFF, reg 3 0x0002] 0x03020400 (.goesTo [reg 4 0x0001, reg 8 0x0001]) = true := by decide

/-- Vector A2: `sub r4, r2, r3`. -/
theorem test_A2 : vector [reg 2 0x0003, reg 3 0x0005] 0x03020408 (.goesTo [reg 4 0xFFFE, reg 8 0x0001]) = true := by decide

/-- Vector A3: `mul r4, r2, r3`. -/
theorem test_A3 : vector [reg 2 0x0100, reg 3 0x0100, reg 4 0x1111] 0x03020410 (.goesTo [reg 4 0x0000, reg 8 0x0001]) = true := by decide

/-- Vector A4: `mul r4, r2, r3`. -/
theorem test_A4 : vector [reg 2 0xFFFF, reg 3 0xFFFF] 0x03020410 (.goesTo [reg 4 0x0001, reg 8 0x0001]) = true := by decide

/-- Vector A7: `div r4, r2, r1`. -/
theorem test_A7 : vector [reg 2 0xABCD] 0x01020418 (.goesTo [reg 4 0xABCD, reg 8 0x0001]) = true := by decide

/-- Vector A8: `rem r4, r2, r1`. -/
theorem test_A8 : vector [reg 2 0xABCD, reg 4 0x5555] 0x01020420 (.goesTo [reg 4 0x0000, reg 8 0x0001]) = true := by decide

/-- Vector A9: `rem r4, r2, r3`. -/
theorem test_A9 : vector [reg 2 0xFFFF, reg 3 0x000A] 0x03020420 (.goesTo [reg 4 0x0005, reg 8 0x0001]) = true := by decide

/-- Vector A11: `div r0, r2, r0`. -/
theorem test_A11 : vector [reg 2 0x0005] 0x00020018 (.fails .divideByZero) = true := by decide

/-- Vector A13: `add r1, r0, r0`. -/
theorem test_A13 : vector [] 0x00000100 (.fails (.writeProtected 1)) = true := by decide

/-- Vector A16: `shl r4, r2, r3`. -/
theorem test_A16 : vector [reg 2 0xFFFF, reg 3 0x000F] 0x03020428 (.goesTo [reg 4 0x8000, reg 8 0x0001]) = true := by decide

/-- Vector A17: `shl r4, r2, r3`. -/
theorem test_A17 : vector [reg 2 0xFFFF, reg 3 0x0010, reg 4 0x1111] 0x03020428 (.goesTo [reg 4 0x0000, reg 8 0x0001]) = true := by decide

/-- Vector A18: `shr r4, r2, r3`. -/
theorem test_A18 : vector [reg 2 0x8000, reg 3 0x000F] 0x03020430 (.goesTo [reg 4 0x0001, reg 8 0x0001]) = true := by decide

/-- Vector A19: `shr r4, r2, r3`. -/
theorem test_A19 : vector [reg 2 0x8000, reg 3 0xFFFF, reg 4 0x1111] 0x03020430 (.goesTo [reg 4 0x0000, reg 8 0x0001]) = true := by decide

/-- Vector A20: `and r4, r2, r3`. -/
theorem test_A20 : vector [reg 2 0xF0F0, reg 3 0x3C3C] 0x03020438 (.goesTo [reg 4 0x3030, reg 8 0x0001]) = true := by decide

/-- Vector A21: `or r4, r2, r3`. -/
theorem test_A21 : vector [reg 2 0xF0F0, reg 3 0x3C3C] 0x03020440 (.goesTo [reg 4 0xFCFC, reg 8 0x0001]) = true := by decide

/-- Vector A22: `xor r4, r2, r3`. -/
theorem test_A22 : vector [reg 2 0xF0F0, reg 3 0x3C3C] 0x03020450 (.goesTo [reg 4 0xCCCC, reg 8 0x0001]) = true := by decide

/-- Vector A23: `(no mnemonic)`. -/
theorem test_A23 : vector [reg 2 0x00FF, reg 3 0x1234] 0x03020448 (.goesTo [reg 4 0xFF00, reg 8 0x0001]) = true := by decide

/-- Vector A24: `inc r4, r2`. -/
theorem test_A24 : vector [reg 2 0xFFFF, reg 4 0x0007] 0x00020458 (.goesTo [reg 4 0x0000, reg 8 0x0001]) = true := by decide

/-- Vector A25: `dec r4, r0`. -/
theorem test_A25 : vector [] 0x00000460 (.goesTo [reg 4 0xFFFF, reg 8 0x0001]) = true := by decide

/-- Vector A26: `double r4, r2`. -/
theorem test_A26 : vector [reg 2 0x8001] 0x00020468 (.goesTo [reg 4 0x0002, reg 8 0x0001]) = true := by decide

/-- Vector A27: `halve r4, r2`. -/
theorem test_A27 : vector [reg 2 0x8001] 0x00020470 (.goesTo [reg 4 0x4000, reg 8 0x0001]) = true := by decide

/-- Vector A28: `addi r4, 0x0102`. -/
theorem test_A28 : vector [reg 2 0x0010] 0x01020478 (.goesTo [reg 4 0x0112, reg 8 0x0001]) = true := by decide

/-- Vector A29: `addi r4, 5`. -/
theorem test_A29 : vector [reg 5 0x0100] 0x00050478 (.goesTo [reg 4 0x0105, reg 8 0x0001]) = true := by decide

/-- Vector A32: `subi r4, 0x0003`. -/
theorem test_A32 : vector [reg 3 0x0003, reg 4 0x1111] 0x00030480 (.goesTo [reg 4 0x0000, reg 8 0x0001]) = true := by decide

/-- Vector A33: `muli r4, 0x0203`. -/
theorem test_A33 : vector [reg 3 0x0002] 0x02030488 (.goesTo [reg 4 0x0406, reg 8 0x0001]) = true := by decide

/-- Vector A34: `divi r4, 0x0002`. -/
theorem test_A34 : vector [reg 2 0x0009] 0x00020490 (.goesTo [reg 4 0x0004, reg 8 0x0001]) = true := by decide

/-- Vector A35: `divi r4, 0x0000`. -/
theorem test_A35 : vector [reg 4 0x0009] 0x00000490 (.fails .divideByZero) = true := by decide

/-- Vector A36: `remi r4, 0x0007`. -/
theorem test_A36 : vector [reg 7 0x0064] 0x00070498 (.goesTo [reg 4 0x0002, reg 8 0x0001]) = true := by decide

/-- Vector A37: `shli r4, 0x0004`. -/
theorem test_A37 : vector [reg 4 0x0123] 0x000404A0 (.goesTo [reg 4 0x1230, reg 8 0x0001]) = true := by decide

/-- Vector A38: `shri r4, 0x0102`. -/
theorem test_A38 : vector [reg 2 0xFFFF, reg 4 0x1111] 0x010204A8 (.goesTo [reg 4 0x0000, reg 8 0x0001]) = true := by decide

/-- Vector A40: `(no mnemonic)`. -/
theorem test_A40 : vector [reg 2 0x0001, reg 3 0x0001] 0x030204B0 (.fails (.notImplemented 22)) = true := by decide

/-- Vector A41: `(no mnemonic)`. -/
theorem test_A41 : vector [] 0x000000F8 (.fails (.notImplemented 31)) = true := by decide

/-- Vector M1: `move r4, r2`. -/
theorem test_M1 : vector [reg 2 0xBEEF] 0x00020401 (.goesTo [reg 4 0xBEEF, reg 8 0x0001]) = true := by decide

/-- Vector M2: `move r0, r2`. -/
theorem test_M2 : vector [reg 2 0x0005] 0x00020001 (.fails (.writeProtected 0)) = true := by decide

/-- Vector M4: `swap r2, r3`. -/
theorem test_M4 : vector [reg 2 0x1111, reg 3 0x2222] 0x00030209 (.goesTo [reg 2 0x2222, reg 3 0x1111, reg 8 0x0001]) = true := by decide

/-- Vector M5: `swap r2, r1`. -/
theorem test_M5 : vector [reg 2 0x0007] 0x00010209 (.fails (.writeProtected 1)) = true := by decide

/-- Vector M8: `swap.rm r2, r2`. -/
theorem test_M8 : vector [reg 2 0x0010, cell .data 0x0010 0xBBBB] 0x00020211 (.goesTo [reg 2 0xBBBB, reg 8 0x0001, cell .data 0x0010 0x0010]) = true := by decide

/-- Vector M9: `swap.mm r2, r3`. -/
theorem test_M9 : vector [reg 2 0x0010, reg 3 0x0020, cell .data 0x0010 0xAAAA, cell .data 0x0020 0xBBBB] 0x00030219 (.goesTo [reg 8 0x0001, cell .data 0x0010 0xBBBB, cell .data 0x0020 0xAAAA]) = true := by decide

/-- Vector M10: `swap.mm r2, r3`. -/
theorem test_M10 : vector [reg 2 0x0010, reg 3 0xFF00, cell .data 0x0010 0xAAAA] 0x00030219 (.fails (.unmappedIoAddress 0xFF00)) = true := by decide

/-- Vector M11: `swap.ri r2, 0x0030`. -/
theorem test_M11 : vector [reg 2 0xAAAA, cell .data 0x0030 0xBBBB] 0x00300221 (.goesTo [reg 2 0xBBBB, reg 8 0x0001, cell .data 0x0030 0xAAAA]) = true := by decide

/-- Vector M12: `swap.mi r2, 0x0030`. -/
theorem test_M12 : vector [reg 2 0x0010, cell .data 0x0010 0xAAAA, cell .data 0x0030 0xBBBB] 0x00300229 (.goesTo [reg 8 0x0001, cell .data 0x0010 0xBBBB, cell .data 0x0030 0xAAAA]) = true := by decide

/-- Vector M13: `set r2, 0xFFFF`. -/
theorem test_M13 : vector [] 0xFFFF0231 (.goesTo [reg 2 0xFFFF, reg 8 0x0001]) = true := by decide

/-- Vector M14: `set r1, 1`. -/
theorem test_M14 : vector [] 0x00010131 (.fails (.writeProtected 1)) = true := by decide

/-- Vector M19: `load r0, r2`. -/
theorem test_M19 : vector [reg 2 0xFF00] 0x00020039 (.fails (.writeProtected 0)) = true := by decide

/-- Vector M20: `load.i r5, 0x0040`. -/
theorem test_M20 : vector [cell .data 0x0040 0x4321] 0x00400541 (.goesTo [reg 5 0x4321, reg 8 0x0001]) = true := by decide

/-- Vector M21: `store r2, r3`. -/
theorem test_M21 : vector [reg 2 0x0040, reg 3 0x5678] 0x00030249 (.goesTo [reg 8 0x0001, cell .data 0x0040 0x5678]) = true := by decide

/-- Vector M24: `store.m r2, r3`. -/
theorem test_M24 : vector [reg 2 0x0040, reg 3 0x0041, cell .data 0x0041 0x9999] 0x00030251 (.goesTo [reg 8 0x0001, cell .data 0x0040 0x9999]) = true := by decide

/-- Vector M25: `store.ia r2, 0x0041`. -/
theorem test_M25 : vector [reg 2 0x0040, cell .data 0x0041 0x7777] 0x00410259 (.goesTo [reg 8 0x0001, cell .data 0x0040 0x7777]) = true := by decide

/-- Vector M26: `store.iv r2, 0x1234`. -/
theorem test_M26 : vector [reg 2 0x0040] 0x12340261 (.goesTo [reg 8 0x0001, cell .data 0x0040 0x1234]) = true := by decide

/-- Vector M28: `push.i 0x0102`. -/
theorem test_M28 : vector [reg 9 0x0004] 0x01020071 (.goesTo [reg 8 0x0001, reg 9 0x0005, cell .stack 0x0005 0x0102]) = true := by decide

/-- Vector M29: `push sp`. -/
theorem test_M29 : vector [reg 9 0x0004] 0x00090069 (.goesTo [reg 8 0x0001, reg 9 0x0005, cell .stack 0x0005 0x0004]) = true := by decide

/-- Vector M31: `pop r5`. -/
theorem test_M31 : vector [cell .stack 0xFFFF 0x00BB] 0x00000579 (.goesTo [reg 5 0x00BB, reg 8 0x0001, reg 9 0xFFFE]) = true := by decide

/-- Vector M32: `pop sp`. -/
theorem test_M32 : vector [reg 9 0x0002, cell .stack 0x0002 0x0123] 0x00000979 (.goesTo [reg 8 0x0001, reg 9 0x0123]) = true := by decide

/-- Vector M34: `peek r5`. -/
theorem test_M34 : vector [reg 9 0x0002, cell .stack 0x0002 0x00AA] 0x00000581 (.goesTo [reg 5 0x00AA, reg 8 0x0001]) = true := by decide

/-- Vector M35: `push r4`. -/
theorem test_M35 : vector [reg 4 0x0001, reg 9 0x00FF, size .stack 0x0100] 0x00040069 (.fails (.addressOutOfRange .stack 0x0100)) = true := by decide

/-- Vector M36: `load r5, r2`. -/
theorem test_M36 : vector [reg 2 0xFF10, device 0xFF10 0xFF1F 0x0042] 0x00020539 (.goesTo [reg 5 0x0042, reg 8 0x0001, sees [.load 0xFF10]]) = true := by decide

/-- Vector M37: `store r2, r3`. -/
theorem test_M37 : vector [reg 2 0xFF1F, reg 3 0x0055, device 0xFF10 0xFF1F 0x0000] 0x00030249 (.goesTo [reg 8 0x0001, sees [.store 0xFF1F 0x0055]]) = true := by decide

/-- Vector M39: `swap.rm r4, r2`. -/
theorem test_M39 : vector [reg 2 0xFF10, reg 4 0x0007, device 0xFF10 0xFF1F 0x0042] 0x00020411 (.goesTo [reg 4 0x0042, reg 8 0x0001, sees [.load 0xFF10, .store 0xFF10 0x0007]]) = true := by decide

/-- Vector M40: `(no mnemonic)`. -/
theorem test_M40 : vector [reg 3 0x0005] 0x00030289 (.fails (.invalidMoveOperation 17)) = true := by decide

/-- Vector C1: `eq r2, r3`. -/
theorem test_C1 : vector [reg 2 0x0005, reg 3 0x0005] 0x03020002 (.goesTo [reg 8 0x0001, reg 10 0x0001]) = true := by decide

/-- Vector C3: `neq r2, r3`. -/
theorem test_C3 : vector [reg 2 0x0005, reg 3 0x0006] 0x03020022 (.goesTo [reg 8 0x0001, reg 10 0x0001]) = true := by decide

/-- Vector C4: `lt r2, r3`. -/
theorem test_C4 : vector [reg 2 0xFFFF, reg 3 0x0001, reg 10 0x0001] 0x03020042 (.goesTo [reg 8 0x0001, reg 10 0x0000]) = true := by decide

/-- Vector C5: `lt r2, r3`. -/
theorem test_C5 : vector [reg 2 0x0001, reg 3 0xFFFF] 0x03020042 (.goesTo [reg 8 0x0001, reg 10 0x0001]) = true := by decide

/-- Vector C6: `gt r2, r3`. -/
theorem test_C6 : vector [reg 2 0x8000, reg 3 0x7FFF] 0x03020062 (.goesTo [reg 8 0x0001, reg 10 0x0001]) = true := by decide

/-- Vector C7: `le r2, r3`. -/
theorem test_C7 : vector [reg 2 0x0005, reg 3 0x0005] 0x03020082 (.goesTo [reg 8 0x0001, reg 10 0x0001]) = true := by decide

/-- Vector C8: `ge r2, r3`. -/
theorem test_C8 : vector [reg 2 0x0004, reg 3 0x0005, reg 10 0x0001] 0x030200A2 (.goesTo [reg 8 0x0001, reg 10 0x0000]) = true := by decide

/-- Vector C9: `eq.and r2, r3`. -/
theorem test_C9 : vector [reg 2 0x0005, reg 3 0x0005, reg 10 0x0001] 0x0302000A (.goesTo [reg 8 0x0001, reg 10 0x0001]) = true := by decide

/-- Vector C12: `lt.or r2, r3`. -/
theorem test_C12 : vector [reg 2 0x0009, reg 3 0x0001, reg 10 0x0001] 0x03020052 (.goesTo [reg 8 0x0001, reg 10 0x0001]) = true := by decide

/-- Vector C13: `lt.or r2, r3`. -/
theorem test_C13 : vector [reg 2 0x0009, reg 3 0x0001] 0x03020052 (.goesTo [reg 8 0x0001, reg 10 0x0000]) = true := by decide

/-- Vector C14: `ge.xor r2, r3`. -/
theorem test_C14 : vector [reg 2 0x0009, reg 3 0x0001, reg 10 0x0001] 0x030200BA (.goesTo [reg 8 0x0001, reg 10 0x0000]) = true := by decide

/-- Vector C15: `ge.xor r2, r3`. -/
theorem test_C15 : vector [reg 2 0x0009, reg 3 0x0001] 0x030200BA (.goesTo [reg 8 0x0001, reg 10 0x0001]) = true := by decide

/-- Vector C16: `eq.and r2, r3`. -/
theorem test_C16 : vector [reg 2 0x0005, reg 3 0x0005, reg 10 0x1234] 0x0302000A (.goesTo [reg 8 0x0001, reg 10 0x0001]) = true := by decide

/-- Vector C17: `neq.xor r0, r0`. -/
theorem test_C17 : vector [reg 10 0x8000] 0x0000003A (.goesTo [reg 8 0x0001, reg 10 0x0001]) = true := by decide

/-- Vector C20: `eq pred, r1`. -/
theorem test_C20 : vector [reg 10 0x0001] 0x010A0002 (.goesTo [reg 8 0x0001, reg 10 0x0001]) = true := by decide

/-- Vector C21: `(no mnemonic)`. -/
theorem test_C21 : vector [reg 2 0x0005, reg 3 0x0005] 0x030200C2 (.fails (.invalidCompareOperation 24)) = true := by decide

/-- Vector C22: `(no mnemonic)`. -/
theorem test_C22 : vector [reg 10 0x0001] 0x000000FA (.fails (.invalidCompareOperation 31)) = true := by decide

/-- Vector J1: `b.i 0x0100`. -/
theorem test_J1 : vector [reg 8 0x0010] 0x01000003 (.goesTo [reg 8 0x0100]) = true := by decide

/-- Vector J2: `b.i 0x0010`. -/
theorem test_J2 : vector [reg 8 0x0010] 0x00100003 (.goesTo []) = true := by decide

/-- Vector J4: `b.r r4`. -/
theorem test_J4 : vector [reg 8 0x0010, reg 4 0x0200] 0x00040013 (.goesTo [reg 8 0x0200]) = true := by decide

/-- Vector J5: `call.r r4`. -/
theorem test_J5 : vector [reg 8 0x0010, reg 4 0x0200, reg 11 0x0003] 0x0004001B (.goesTo [reg 8 0x0200, reg 11 0x0004, cell .call 0x0004 0x0011]) = true := by decide

/-- Vector J6: `call.r csp`. -/
theorem test_J6 : vector [reg 8 0x0010, reg 11 0x0003] 0x000B001B (.goesTo [reg 8 0x0003, reg 11 0x0004, cell .call 0x0004 0x0011]) = true := by decide

/-- Vector J7: `bt.i 0x0100`. -/
theorem test_J7 : vector [reg 8 0x0010, reg 10 0x0001] 0x01000023 (.goesTo [reg 8 0x0100]) = true := by decide

/-- Vector J9: `bt.i 0x0100`. -/
theorem test_J9 : vector [reg 8 0x0010, reg 10 0xFF00] 0x01000023 (.goesTo [reg 8 0x0100]) = true := by decide

/-- Vector J10: `bf.i 0x0100`. -/
theorem test_J10 : vector [reg 8 0x0010] 0x01000043 (.goesTo [reg 8 0x0100]) = true := by decide

/-- Vector J11: `bf.i 0x0100`. -/
theorem test_J11 : vector [reg 8 0x0010, reg 10 0x0001] 0x01000043 (.goesTo [reg 8 0x0011]) = true := by decide

/-- Vector J12: `callt.i 0x0100`. -/
theorem test_J12 : vector [reg 8 0x0010, reg 10 0x0001] 0x0100002B (.goesTo [reg 8 0x0100, reg 11 0x0000, cell .call 0x0000 0x0011]) = true := by decide

/-- Vector J14: `callt.i 0x0100`. -/
theorem test_J14 : vector [reg 8 0x0010, noUntakenPush] 0x0100002B (.goesTo [reg 8 0x0011]) = true := by decide

/-- Vector J15: `callf.r r4`. -/
theorem test_J15 : vector [reg 8 0x0010, reg 4 0x0300] 0x0004005B (.goesTo [reg 8 0x0300, reg 11 0x0000, cell .call 0x0000 0x0011]) = true := by decide

/-- Vector J16: `bt.r r4`. -/
theorem test_J16 : vector [reg 8 0x0010, reg 4 0x0300, reg 10 0x0001] 0x00040033 (.goesTo [reg 8 0x0300]) = true := by decide

/-- Vector J17: `bf.r r4`. -/
theorem test_J17 : vector [reg 8 0x0010, reg 4 0x0300, reg 10 0x0001] 0x00040053 (.goesTo [reg 8 0x0011]) = true := by decide

/-- Vector J18: `callt.r r4`. -/
theorem test_J18 : vector [reg 8 0x0010, reg 4 0x0300, reg 10 0x0001] 0x0004003B (.goesTo [reg 8 0x0300, reg 11 0x0000, cell .call 0x0000 0x0011]) = true := by decide

/-- Vector J19: `callf.i 0x0100`. -/
theorem test_J19 : vector [reg 8 0x0010, reg 10 0x0001, noUntakenPush] 0x0100004B (.goesTo [reg 8 0x0011]) = true := by decide

/-- Vector J20: `ite.t r4, r5`. -/
theorem test_J20 : vector [reg 8 0x0010, reg 4 0x0100, reg 5 0x0200, reg 10 0x0001] 0x05040063 (.goesTo [reg 8 0x0100]) = true := by decide

/-- Vector J21: `ite.t r4, r5`. -/
theorem test_J21 : vector [reg 8 0x0010, reg 4 0x0100, reg 5 0x0200] 0x05040063 (.goesTo [reg 8 0x0200]) = true := by decide

/-- Vector J22: `ite.f r4, r5`. -/
theorem test_J22 : vector [reg 8 0x0010, reg 4 0x0100, reg 5 0x0200] 0x0504006B (.goesTo [reg 8 0x0100]) = true := by decide

/-- Vector J23: `ite.f r4, r5`. -/
theorem test_J23 : vector [reg 8 0x0010, reg 4 0x0100, reg 5 0x0200, reg 10 0x0001] 0x0504006B (.goesTo [reg 8 0x0200]) = true := by decide

/-- Vector J24: `itecall.t r4, r5`. -/
theorem test_J24 : vector [reg 8 0x0010, reg 4 0x0100, reg 5 0x0200, reg 10 0x0001] 0x05040073 (.goesTo [reg 8 0x0100, reg 11 0x0000, cell .call 0x0000 0x0011]) = true := by decide

/-- Vector J25: `itecall.t r4, r5`. -/
theorem test_J25 : vector [reg 8 0x0010, reg 4 0x0100, reg 5 0x0200] 0x05040073 (.goesTo [reg 8 0x0200, reg 11 0x0000, cell .call 0x0000 0x0011]) = true := by decide

/-- Vector J26: `itecall.f r4, r5`. -/
theorem test_J26 : vector [reg 8 0x0010, reg 4 0x0100, reg 5 0x0200] 0x0504007B (.goesTo [reg 8 0x0100, reg 11 0x0000, cell .call 0x0000 0x0011]) = true := by decide

/-- Vector J27: `ret`. -/
theorem test_J27 : vector [reg 8 0x0010, reg 11 0x0000, cell .call 0x0000 0x0011] 0x00000083 (.goesTo [reg 8 0x0011, reg 11 0xFFFF]) = true := by decide

/-- Vector J28: `ret`. -/
theorem test_J28 : vector [reg 8 0x0010, cell .call 0xFFFF 0x0042] 0x00000083 (.goesTo [reg 8 0x0042, reg 11 0xFFFE]) = true := by decide

/-- Vector J29: `call.i 0x0000`. -/
theorem test_J29 : vector [reg 8 0xFFFF, cell .call 0x0000 0x5555] 0x0000000B (.goesTo [reg 8 0x0000, reg 11 0x0000, cell .call 0x0000 0x0000]) = true := by decide

/-- Vector J30: `call.i 0x0100`. -/
theorem test_J30 : vector [reg 8 0x0010, reg 11 0x00FF, size .call 0x0100] 0x0100000B (.fails (.addressOutOfRange .call 0x0100)) = true := by decide

/-- Vector J33: `(no mnemonic)`. -/
theorem test_J33 : vector [reg 8 0x0010] 0x0000008B (.fails (.illegalJumpOperation 17)) = true := by decide

/-- Vector S1: `syscall terminate`. -/
theorem test_S1 : vector [] 0x00000004 (.goesTo [reg 8 0x0001, halts]) = true := by decide

/-- Vector S2: `(no mnemonic)`. -/
theorem test_S2 : vector [reg 8 0x1234] 0xCDAB0004 (.goesTo [reg 8 0x1235, halts]) = true := by decide

/-- Vector S3: `syscall panic, 0xBEEF`. -/
theorem test_S3 : vector [] 0xBEEF0104 (.fails (.panic 0xBEEF)) = true := by decide

/-- Vector S4: `syscall panic, 0`. -/
theorem test_S4 : vector [] 0x00000104 (.fails (.panic 0x0000)) = true := by decide

/-- Vector S5: `syscall putc, r2, r2`. -/
theorem test_S5 : vector [reg 2 0x0041] 0x02020204 (.goesTo [reg 8 0x0001, emitted 0x00000041]) = true := by decide

/-- Vector S8: `syscall putc, r2, r3`. -/
theorem test_S8 : vector [reg 2 0x0041, reg 3 0x0041] 0x03020204 (.goesTo [reg 8 0x0001, emitted 0x00410041]) = true := by decide

/-- Vector S10: `(no mnemonic)`. -/
theorem test_S10 : vector [] 0x00000304 (.fails (.invalidSystemCommand 3)) = true := by decide

/-- Vector S11: `(no mnemonic)`. -/
theorem test_S11 : vector [] 0x1234FF04 (.fails (.invalidSystemCommand 255)) = true := by decide

/-- Vector S12: `(no mnemonic)`. -/
theorem test_S12 : vector [] 0x0000000C (.fails (.invalidMiscOperation 1)) = true := by decide

/-- Vector S13: `(no mnemonic)`. -/
theorem test_S13 : vector [] 0x020202FC (.fails (.invalidMiscOperation 31)) = true := by decide

/-- Vector S14: `(no mnemonic)`. -/
theorem test_S14 : vector [] 0x00000005 (.fails (.indexOutOfRange .group 5)) = true := by decide

/-- Vector S15: `(no mnemonic)`. -/
theorem test_S15 : vector [] 0xFFFFFFFE (.fails (.indexOutOfRange .group 6)) = true := by decide

/-- Vector S16: `(no mnemonic)`. -/
theorem test_S16 : vector [] 0xFFFFFFFF (.fails (.indexOutOfRange .group 7)) = true := by decide

/-- The example of `eq.or` in 42_compare.md. -/
theorem test_eqOr : vector [reg 2 3, reg 3 5, reg 10 0] 0x03020012 (.goesTo [reg 10 0, reg 8 1]) = true := by decide

/-- The example of `eq.xor` in 42_compare.md. -/
theorem test_eqXor : vector [reg 2 3, reg 3 5, reg 10 1] 0x0302001A (.goesTo [reg 10 1, reg 8 1]) = true := by decide

/-- The example of `neq.and` in 42_compare.md. -/
theorem test_neqAnd : vector [reg 2 3, reg 3 5, reg 10 1] 0x0302002A (.goesTo [reg 10 1, reg 8 1]) = true := by decide

/-- The example of `neq.or` in 42_compare.md. -/
theorem test_neqOr : vector [reg 2 3, reg 3 5, reg 10 0] 0x03020032 (.goesTo [reg 10 1, reg 8 1]) = true := by decide

/-- The example of `lt.and` in 42_compare.md. -/
theorem test_ltAnd : vector [reg 2 3, reg 3 5, reg 10 1] 0x0302004A (.goesTo [reg 10 1, reg 8 1]) = true := by decide

/-- The example of `lt.xor` in 42_compare.md. -/
theorem test_ltXor : vector [reg 2 3, reg 3 5, reg 10 1] 0x0302005A (.goesTo [reg 10 0, reg 8 1]) = true := by decide

/-- The example of `gt.and` in 42_compare.md. -/
theorem test_gtAnd : vector [reg 2 3, reg 3 5, reg 10 1] 0x0302006A (.goesTo [reg 10 0, reg 8 1]) = true := by decide

/-- The example of `gt.or` in 42_compare.md. -/
theorem test_gtOr : vector [reg 2 3, reg 3 5, reg 10 0] 0x03020072 (.goesTo [reg 10 0, reg 8 1]) = true := by decide

/-- The example of `gt.xor` in 42_compare.md. -/
theorem test_gtXor : vector [reg 2 3, reg 3 5, reg 10 1] 0x0302007A (.goesTo [reg 10 1, reg 8 1]) = true := by decide

/-- The example of `le.and` in 42_compare.md. -/
theorem test_leAnd : vector [reg 2 3, reg 3 5, reg 10 1] 0x0302008A (.goesTo [reg 10 1, reg 8 1]) = true := by decide

/-- The example of `le.or` in 42_compare.md. -/
theorem test_leOr : vector [reg 2 3, reg 3 5, reg 10 0] 0x03020092 (.goesTo [reg 10 1, reg 8 1]) = true := by decide

/-- The example of `le.xor` in 42_compare.md. -/
theorem test_leXor : vector [reg 2 3, reg 3 5, reg 10 1] 0x0302009A (.goesTo [reg 10 0, reg 8 1]) = true := by decide

/-- The example of `ge.and` in 42_compare.md. -/
theorem test_geAnd : vector [reg 2 3, reg 3 5, reg 10 1] 0x030200AA (.goesTo [reg 10 0, reg 8 1]) = true := by decide

/-- The example of `ge.or` in 42_compare.md. -/
theorem test_geOr : vector [reg 2 3, reg 3 5, reg 10 0] 0x030200B2 (.goesTo [reg 10 0, reg 8 1]) = true := by decide

/-! ### Witnesses: for each statement with hypotheses, concrete values that meet them, for each clause, at the ends of its
range -/

/-- From reset with changes, `word` where the next instruction is fetched. -/
def loaded (changes : List (State → State)) (word : Nat) : State := (changed changes State.reset).withFetchWord 32 word

/-- A running core whose step answers a next state with `p`. -/
def stepsTo (s : State) (p : State → Bool) : Bool :=
  s.running && (match nextState (step s) with
    | some t => p t
    | none => false)

/-- An instruction that answers a next state with `p`. -/
def runsTo (i : Instr) (s : State) (p : State → Bool) : Bool :=
  match nextState (exec i s) with
  | some t => p t
  | none => false

/-- A core with one device at 0xFF10 to 0xFF1F that answers as scripted. -/
def withScript (script : List DeviceAnswer) : State := withDevice (answering 0xFF10 0xFF1F script) State.reset

/-- The device of `withScript`. -/
def scripted (script : List DeviceAnswer) : Device := answering 0xFF10 0xFF1F script

theorem witness_CodecFieldsExactInverse :
    ({ group := 7, op := 31, data0 := 255, data1 := 255, data2 := 255 } : FieldValues).group < 8 ∧ 31 < 32 ∧ 255 < 256 ∧
    8 ≤ ({ group := 8, op := 0, data0 := 0, data1 := 0, data2 := 0 } : FieldValues).group ∧
    32 ≤ ({ group := 0, op := 32, data0 := 0, data1 := 0, data2 := 0 } : FieldValues).op ∧
    256 ≤ ({ group := 0, op := 0, data0 := 256, data1 := 0, data2 := 0 } : FieldValues).data0 ∧
    256 ≤ ({ group := 0, op := 0, data0 := 0, data1 := 256, data2 := 0 } : FieldValues).data1 ∧
    256 ≤ ({ group := 0, op := 0, data0 := 0, data1 := 0, data2 := 256 } : FieldValues).data2 ∧
    stepsTo State.reset (fun _ => true) = true := by
  decide

theorem witness_DecodeInvertsEncode :
    (Instr.xor 255 255 255).wellFormed = true ∧ (Instr.storeIv 0 0xFFFF).wellFormed = true ∧ Instr.ret.wellFormed = true := by
  decide

/-- A running core at the last code cell, with the word of one undefined encoding. -/
def undefinedAt (word : Nat) : State := loaded [reg 8 0xFFFF] word

/-- What `UndefinedEncodings` asks of a state and an error. -/
def undefinedHolds (s : State) (e : Machine.Error) : Bool :=
  s.running && decide (s.ip.toNat < s.config.codeSize)
    && decide (undefinedEncoding (decodeFields (s.code.readCell s.ip.toNat)) = some e)
    && (match e with
      | .invalidSystemCommand sel => decide (systemCallTable s.config sel = .invalid)
      | _ => true)

theorem witness_UndefinedEncodings :
    undefinedHolds (undefinedAt 0x05) (.indexOutOfRange .group 5) = true ∧
    undefinedHolds (undefinedAt 0xFF) (.indexOutOfRange .group 7) = true ∧
    undefinedHolds (undefinedAt 0xB0) (.notImplemented 22) = true ∧
    undefinedHolds (undefinedAt 0xF8) (.notImplemented 31) = true ∧
    undefinedHolds (undefinedAt 0x89) (.invalidMoveOperation 17) = true ∧
    undefinedHolds (undefinedAt 0xF9) (.invalidMoveOperation 31) = true ∧
    undefinedHolds (undefinedAt 0xC2) (.invalidCompareOperation 24) = true ∧
    undefinedHolds (undefinedAt 0xFA) (.invalidCompareOperation 31) = true ∧
    undefinedHolds (undefinedAt 0x8B) (.illegalJumpOperation 17) = true ∧
    undefinedHolds (undefinedAt 0xFB) (.illegalJumpOperation 31) = true ∧
    undefinedHolds (undefinedAt 0x0C) (.invalidMiscOperation 1) = true ∧
    undefinedHolds (undefinedAt 0xFC) (.invalidMiscOperation 31) = true ∧
    undefinedHolds (undefinedAt 0x0304) (.invalidSystemCommand 3) = true ∧
    undefinedHolds (undefinedAt 0xFF04) (.invalidSystemCommand 255) = true := by
  decide

theorem witness_RegisterReadWriteRules :
    (0#8).toNat < 2 ∧ (1#8).toNat < 2 ∧ 2 ≤ (2#8).toNat ∧ 2 ≤ (255#8).toNat ∧ 2#8 ≠ 255#8 ∧
    (1#8 ∈ destinations (.swap 2 1) ∧ divisor (.swap 2 1) State.reset ≠ some 0#16) ∧
    (0#8 ∈ destinations (.div 0 2 1) ∧ divisor (.div 0 2 1) State.reset ≠ some 0#16) := by
  decide

theorem witness_GeneralRegistersOnlyThroughOperands :
    ∀ r ∈ [2#8, 7#8, 12#8, 255#8],
      2 ≤ r.toNat ∧ (r.toNat < 8 ∨ 12 ≤ r.toNat) ∧ r ∉ (Instr.addi 3 0x0104).operands.1 := by
  decide

theorem witness_WriteProtectionAndDivideByZero :
    divisor (.div 0 2 0) State.reset = some 0#16 ∧ divisor (.remi 2 0) State.reset = some 0#16 ∧
    (divisor (.swap 2 1) State.reset ≠ some 0#16 ∧
      (destinations (.swap 2 1)).find? (fun d => decide (d.toNat < 2)) = some 1#8) ∧
    (divisor (.divi 0 3) State.reset ≠ some 0#16 ∧
      (destinations (.divi 0 3)).find? (fun d => decide (d.toNat < 2)) = some 0#8) ∧
    State.reset.error = none ∧
    runsTo (.div 0 2 0) State.reset (fun t => t.error = some .divideByZero) = true ∧
    runsTo (.swap 2 1) State.reset (fun t => t.error = some (.writeProtected 1)) = true := by
  decide

theorem witness_HostResetValues :
    (halts State.reset).halted = true ∧
    ∀ r ∈ [2#8, 7#8, 12#8, 255#8], 2 ≤ r.toNat ∧ (r.toNat < 8 ∨ 12 ≤ r.toNat) := by
  decide

theorem witness_ResetMeetsInvariant :
    ({ codeSize := 1, dataSize := 1, stackSize := 65536, callSize := 1, untakenCallPushes := false,
       devices := [answering 0xFF10 0xFF1F []],
       syscallExt := [{ selector := 3, call := .platform }, { selector := 255, call := .putc }] } : Config).wellFormed = true ∧
    (Memory.Wf [(3, 1#8)] ∧ Memory.Below [(3, 1#8)] (4 * 1)) ∧ (Memory.Wf [(1, 255#8)] ∧ Memory.Below [(1, 255#8)] (2 * 1)) ∧
    (Memory.Wf [(0, 1#8), (131071, 2#8)] ∧ Memory.Below [(0, 1#8), (131071, 2#8)] (2 * 65536)) ∧
    (Memory.Wf [] ∧ Memory.Below [] (2 * 1)) := by
  decide

theorem witness_StepKeepsInvariant :
    State.reset.Inv ∧ (loaded [] 0x00050231).Inv ∧ stepsTo State.reset (fun t => t.error.isSome) = true ∧
    stepsTo (loaded [] 0x00050231) (fun t => t.error.isNone) = true := by
  decide

theorem witness_StepRunsDecodedInstruction :
    (fetchesInstr (loaded [reg 8 0xFFFF] 0x00050231) (.set 2 5) ∧
      runsTo (.set 2 5) (loaded [reg 8 0xFFFF] 0x00050231).beginStep (fun t => t.error.isNone && t.advancePc) = true) ∧
    (fetchesInstr (loaded [] 0x01000003) (.bI 0x100) ∧
      runsTo (.bI 0x100) (loaded [] 0x01000003).beginStep (fun t => t.error.isNone && !t.advancePc) = true) ∧
    (fetchesInstr State.reset (.add 0 0 0) ∧
      runsTo (.add 0 0 0) State.reset.beginStep (fun t => t.error.isSome) = true) ∧
    (let s := (reg 2 0xFF10 (withScript [.never])).withFetchWord 32 0x00020539;
      s.running = true ∧ fetchesInstr s (.load 5 2) ∧
        faultOf (exec (.load 5 2) s.beginStep) = some (.deviceNeverAnswers 0xFF10)) ∧
    (let s := changed [size .code 2, reg 8 2] State.reset;
      s.running = true ∧ s.config.codeSize ≤ s.ip.toNat) ∧
    ((undefinedAt 0x05).running = true ∧ (undefinedAt 0x05).ip.toNat < (undefinedAt 0x05).config.codeSize ∧
      decode ((undefinedAt 0x05).code.readCell (undefinedAt 0x05).ip.toNat) = .undefined (.noUnit 5)) ∧
    (decode ((undefinedAt 0x03020704).code.readCell (undefinedAt 0x03020704).ip.toNat) = .undefined (.systemCommand 7 2 3) ∧
      systemCallTable (undefinedAt 0x03020704).config 7 = .invalid ∧
      (∀ call ∈ [SystemCall.terminate, .panic, .putc, .platform],
        systemCallTable (withSystemCall 7 call State.reset).config 7 = call)) ∧
    (halts State.reset).running = false := by
  decide

theorem witness_CodeReadRule :
    let s := size .code 2 State.reset
    s.config.codeSize ≤ (2#16).toNat ∧ s.config.codeSize ≤ (0xFFFF#16).toNat ∧ (1#16).toNat < s.config.codeSize ∧
      (0xFFFF#16).toNat < State.reset.config.codeSize := by
  decide

theorem witness_HaltedCoreDoesNothing : (halts State.reset).halted = true := by decide

theorem witness_RunningCoreTransitions :
    State.reset.config.syscallExt = [] ∧
    (halts State.reset).halted = true ∧ stepsTo (loaded [] 0x00050231) (fun t => t.running) = true ∧
    stepsTo (loaded [] 0x00000004) (fun t => t.halted && t.error.isNone) = true ∧
    stepsTo State.reset (fun t => t.halted && t.error.isSome) = true := by
  decide

/-- A step that swaps RAM cell 0xFEFF with a device that takes the load and refuses the store. -/
def deviceRefusesStore : State :=
  (changed [reg 2 0xFEFF, reg 3 0xFF10] (withScript [.ok 7, .error 9])).withFetchWord 32 0x00030219

theorem witness_ErrorsArePrecise :
    stepsTo State.reset (fun t => decide (t.error = some (.writeProtected 0))) = true ∧
    stepsTo deviceRefusesStore (fun t => decide (t.error = some (.deviceError 0xFF10 9))) = true ∧
    isDeviceError (.writeProtected 0) = false ∧ isDeviceError (.deviceError 0xFF10 9) = true ∧
    fetchesInstr deviceRefusesStore (.swapMm 2 3) ∧
    (∀ c ∈ storedCells (.swapMm 2 3) deviceRefusesStore, 0 ≠ 2 * c.2.toNat ∧ 0 ≠ 2 * c.2.toNat + 1) := by
  decide

theorem witness_OnlyReachableErrors :
    stepsTo (undefinedAt 0x05) (fun t => decide (t.error = some (.indexOutOfRange .group 5))) = true ∧
    stepsTo (undefinedAt 0x0304) (fun t => decide (t.error = some (.invalidSystemCommand 3))) = true ∧
    stepsTo (loaded [size .code 2, reg 8 2] 0) (fun t => decide (t.error = some (.addressOutOfRange .code 2))) = true ∧
    stepsTo (loaded [size .stack 4, reg 9 3] 0x00000071)
      (fun t => decide (t.error = some (.addressOutOfRange .stack 4))) = true ∧
    stepsTo (loaded [size .call 4, reg 11 4] 0x00000083)
      (fun t => decide (t.error = some (.addressOutOfRange .call 4))) = true ∧
    stepsTo (loaded [] 0xFF000541) (fun t => decide (t.error = some (.unmappedIoAddress 0xFF00))) = true ∧
    stepsTo deviceRefusesStore (fun t => decide (t.error = some (.deviceError 0xFF10 9))) = true := by
  decide

theorem witness_StepKeepsConfigurationAndCode :
    (nextState (step (loaded [] 0x12340261))).isSome = true ∧ (nextState (step (halts State.reset))).isSome = true := by
  decide

theorem witness_SegmentsAreSeparate :
    Segment.code ∉ reachedSegments (.push 2) ∧ Segment.data ∉ reachedSegments (.push 2) ∧
    Segment.call ∉ reachedSegments (.push 2) ∧ Segment.stack ∉ reachedSegments (.load 2 3) ∧
    Segment.data ≠ Segment.code ∧
    (match codeRead 0xFFFF (loaded [reg 8 0xFFFF] 0x00050231) with
      | .done w _ => w == 0x00050231#32
      | _ => false) = true := by
  decide

theorem witness_InstructionFrame :
    runsTo (.push 4) State.reset (fun t => t.error.isNone) = true ∧
    (5#8 ∉ destinations (.push 4) ∧ 5#8 ∉ implicitDestinations (.push 4)) ∧
    (storedCells (.push 4) State.reset = [(.stack, 0x0000)] ∧ 2 ≠ 2 * (0x0000#16).toNat ∧ 2 ≠ 2 * (0x0000#16).toNat + 1) ∧
    (dataAddresses (.storeIv 0 7) State.reset = [0x0000] ∧ (0x0000#16).toNat < State.reset.config.dataSize) ∧
    Instr.push 4 ≠ .syscallTerminate ∧ 8#8 ∉ implicitDestinations (.push 4) ∧ State.reset.error = none := by
  decide

/-- The destination indices at the ends of the two ranges, and divisors of both kinds: what the statements AddSubMulShiftRules,
DivisionRules, BitwiseRules, UnaryRules, ImmediateArithmeticRules and ImmediateDivisionRules ask. -/
theorem witness_arithmetic_forms :
    ((0#8).toNat < 2 ∧ (1#8).toNat < 2 ∧ 2 ≤ (2#8).toNat ∧ 2 ≤ (255#8).toNat) ∧
    State.reset.reg 2 = 0#16 ∧ State.reset.reg 1 ≠ 0#16 ∧ (reg 2 0xFFFF State.reset).reg 2 ≠ 0#16 ∧
    (0#16 = 0#16 ∧ 1#16 ≠ 0#16 ∧ 0xFFFF#16 ≠ 0#16) := by
  decide

theorem witness_DivisionRules :
    2 ≤ (4#8).toNat ∧ (changed [reg 2 0xFFFF, reg 3 10] State.reset).reg 3 ≠ 0#16 ∧
    runsTo (.div 4 2 3) (changed [reg 2 0xFFFF, reg 3 10] State.reset) (fun t => t.error.isNone) = true ∧
    runsTo (.rem 4 2 3) (changed [reg 2 0xFFFF, reg 3 10] State.reset) (fun t => t.error.isNone) = true := by
  decide

theorem witness_CompareLaws : 9#8 ≠ 10#8 ∧ 11#8 ≠ 10#8 := by decide

/-- The call-stack pointer at both ends of the range a push and a pop accept, both predicates and both values of
`UNTAKEN_CALL_PUSHES`: what CallAndReturnRules, ConditionalCallRules and IfThenElseRules ask. -/
theorem witness_call_forms :
    (let s := changed [size .call 4, reg 11 3] State.reset;
      s.config.callSize ≤ (s.reg 11 + 1#16).toNat ∧ (s.reg 11).toNat < s.config.callSize) ∧
    (let s := changed [size .call 4, reg 11 2, reg 10 0x8000] State.reset;
      (s.reg 11 + 1#16).toNat < s.config.callSize ∧ s.reg 10 ≠ 0#16 ∧ s.config.untakenCallPushes = true) ∧
    (let s := changed [size .call 4, reg 11 4, noUntakenPush] State.reset;
      s.config.callSize ≤ (s.reg 11).toNat ∧ s.reg 10 = 0#16 ∧ s.config.untakenCallPushes = false) ∧
    (State.reset.reg 11 + 1#16).toNat < State.reset.config.callSize := by
  decide

/-- `call.i 1` at 0 with `ret` at 1. -/
def callThenRet : State := (loaded [] 0x0001000B).setMem .code ((loaded [] 0x0001000B).code.writeCell 1 0x00000083)

theorem witness_CallThenReturn :
    callThenRet.running = true ∧ fetchesInstr callThenRet (.callI 1) ∧ pushesReturn (.callI 1) callThenRet = true ∧
    (callThenRet.reg 11 + 1#16).toNat < callThenRet.config.callSize ∧
    stepsTo callThenRet (fun t => decide (fetchesInstr t .ret)) = true ∧
    pushesReturn (.calltI 1) callThenRet = true ∧ pushesReturn (.callfR 1) callThenRet = true := by
  decide

theorem witness_RegisterMoveRules :
    (0#8).toNat < 2 ∧ (1#8).toNat < 2 ∧ 2 ≤ (2#8).toNat ∧ 2 ≤ (255#8).toNat ∧ 2#8 = 2#8 := by
  decide

/-- An address at each end of RAM, one nothing answers, and one of a device for each of its answers, to a load and to a
store: what LoadRules, StoreRules, RegisterCellSwapRules and RouterRules ask. -/
theorem witness_data_accesses :
    (0#16).toNat < State.reset.config.dataSize ∧ (0xFEFF#16).toNat < State.reset.config.dataSize ∧
    (State.reset.config.dataSize ≤ (0xFF00#16).toNat ∧ registryLookup State.reset.config.devices 0xFF00 = none) ∧
    (State.reset.config.dataSize ≤ (0xFFFF#16).toNat ∧ registryLookup (withScript []).config.devices 0xFFFF = none) ∧
    ((withScript []).config.dataSize ≤ (0xFF10#16).toNat ∧ (withScript []).config.dataSize ≤ (0xFF1F#16).toNat) ∧
    (∀ script ∈ [[.ok 7], [.error 9]],
      registryLookup (withScript script).config.devices 0xFF10 = some (scripted script) ∧
      registryLookup (withScript script).config.devices 0xFF1F = some (scripted script)) ∧
    deviceAnswer (scripted [.ok 7]) [] (.load 0xFF10) = .ok 7 ∧ deviceAnswer (scripted [.error 9]) [] (.load 0xFF10) = .error 9 ∧
    deviceAnswer (scripted [.ok 7]) [] (.store 0xFF1F 1) = .ok 7 ∧
    deviceAnswer (scripted [.error 9]) [] (.store 0xFF1F 1) = .error 9 ∧
    2 ≤ (2#8).toNat ∧ (1#8).toNat < 2 := by
  decide

/-- Two addresses in RAM (different and equal), one outside everything, and two of a device that answers load, load, store,
store in turn: what MemoryCopyRules and CellSwapRules ask beyond `witness_data_accesses`. -/
theorem witness_two_addresses :
    ((0#16).toNat < State.reset.config.dataSize ∧ (0xFEFF#16).toNat < State.reset.config.dataSize) ∧
    (let s := reg 2 0x10 State.reset; s.reg 2 = 0x10#16 ∧ (s.reg 2).toNat < s.config.dataSize) ∧
    ¬Mapped 0xFF00 State.reset ∧ Mapped 0xFF10 (withScript []) ∧ Mapped 0xFEFF State.reset ∧
    (let dev := scripted [.ok 1, .ok 2, .ok 3, .ok 4];
      let h := [IoAccess.load 0xFF10];
      let h2 := h ++ [.load 0xFF11];
      let h3 := h2 ++ [.store 0xFF10 2];
      deviceAnswer dev [] (.load 0xFF10) = .ok 1 ∧ deviceAnswer dev h (.load 0xFF11) = .ok 2 ∧
      deviceAnswer dev h2 (.store 0xFF10 2) = .ok 3 ∧ deviceAnswer dev h3 (.store 0xFF11 1) = .ok 4) ∧
    deviceAnswer (scripted [.ok 1, .error 9]) [.load 0xFF10] (.store 0xFF11 1) = .error 9 := by
  decide

/-- The hypotheses of one clause of OnlySilentDevicesBlock, for each kind of access. -/
theorem witness_OnlySilentDevicesBlock :
    (let s := changed [reg 2 0xFF10, reg 3 0xFF1F] (withScript [.never]);
      2 ≤ (2#8).toNat ∧ s.config.dataSize ≤ (s.reg 3).toNat ∧ Mapped (s.reg 2) s ∧ Mapped (s.reg 3) s ∧
      registryLookup s.config.devices (s.reg 3) = some (scripted [.never]) ∧
      registryLookup s.config.devices (s.reg 2) = some (scripted [.never]) ∧
      deviceAnswer (scripted [.never]) s.io (.load (s.reg 3)) = .never ∧
      deviceAnswer (scripted [.never]) s.io (.load (s.reg 2)) = .never ∧
      deviceAnswer (scripted [.never]) s.io (.store (s.reg 2) (s.reg 3)) = .never) ∧
    faultOf (exec (.load 5 2) (reg 2 0xFF10 (withScript [.never]))) = some (.deviceNeverAnswers 0xFF10) ∧
    faultOf (step ((reg 2 0xFF10 (withScript [.never])).withFetchWord 32 0x00020539)) = some (.deviceNeverAnswers 0xFF10) := by
  decide

/-- The data-stack pointer at both ends of the range a push and a pop accept: what PushRules and PopPeekRules ask. -/
theorem witness_stack_forms :
    (let s := changed [size .stack 4, reg 9 3] State.reset;
      s.config.stackSize ≤ (s.reg 9 + 1#16).toNat ∧ (s.reg 9).toNat < s.config.stackSize) ∧
    (let s := changed [size .stack 4, reg 9 2] State.reset; (s.reg 9 + 1#16).toNat < s.config.stackSize) ∧
    (let s := changed [size .stack 4, reg 9 4] State.reset; s.config.stackSize ≤ (s.reg 9).toNat) ∧
    (State.reset.reg 9 + 1#16).toNat < State.reset.config.stackSize ∧ (0#8).toNat < 2 ∧ (1#8).toNat < 2 ∧
    2 ≤ (2#8).toNat ∧ 2 ≤ (255#8).toNat := by
  decide

theorem witness_MemReadAfterMemWrite :
    (0xFEFF#16).toNat < State.reset.config.dataSize ∧ (0#16).toNat < State.reset.config.dataSize ∧ 0#16 ≠ 0xFEFF#16 ∧
    (Segment.stack ≠ .data) ∧ (2 ≠ 2 * (0xFEFF#16).toNat ∧ 2 ≠ 2 * (0xFEFF#16).toNat + 1) := by
  decide

theorem witness_StackRules :
    ∀ k ∈ [StackId.dataStack, StackId.callStack],
      (let s := changed [size (stackSegment k) 4, reg (stackPointer k).toNat 3] State.reset;
        s.size (stackSegment k) ≤ (s.reg (stackPointer k) + 1#16).toNat ∧
        (s.reg (stackPointer k)).toNat < s.size (stackSegment k)) ∧
      (let s := changed [size (stackSegment k) 4, reg (stackPointer k).toNat 2] State.reset;
        (s.reg (stackPointer k) + 1#16).toNat < s.size (stackSegment k)) ∧
      (let s := changed [size (stackSegment k) 4, reg (stackPointer k).toNat 4] State.reset;
        s.size (stackSegment k) ≤ (s.reg (stackPointer k)).toNat) := by
  decide

theorem witness_SystemCallRules :
    2#8 = 2#8 ∧ 2#8 ≠ 3#8 ∧
    ((loaded [] 0x00000004).running = true ∧ fetchesInstr (loaded [] 0x00000004) .syscallTerminate) ∧
    ((loaded [] 0xBEEF0104).running = true ∧ fetchesInstr (loaded [] 0xBEEF0104) (.syscallPanic 0xBEEF)) := by
  decide

theorem witness_RegisterRules :
    (State.reset.started = false ∧ devicesWellFormed (withDevices listAB).config.devices = true) ∧
    (answering 0x30 0x2F []).last.toNat < (answering 0x30 0x2F []).first.toNat ∧
    (let dev := answering 0x1F 0x1F [];
      dev.first.toNat ≤ dev.last.toNat ∧ ∃ e ∈ (withDevices listAB).config.devices,
        dev.first.toNat ≤ (0x1F#16).toNat ∧ (0x1F#16).toNat ≤ dev.last.toNat ∧ respondsTo e 0x1F = true) ∧
    (let dev := answering 0x30 0x30 [];
      dev.first.toNat ≤ dev.last.toNat ∧ ∀ e ∈ (withDevices listAB).config.devices, respondsTo e 0x30 = false) ∧
    stepsTo State.reset (fun _ => true) = true := by
  decide

/-- The range clause of RegisterRules, for every address of the range 0x30 to 0x30. -/
theorem witness_RegisterRules_disjoint :
    ∀ e ∈ (withDevices listAB).config.devices, ∀ a : Word, (0x30#16).toNat ≤ a.toNat → a.toNat ≤ (0x30#16).toNat →
      respondsTo e a = false := by
  intro e he a h1 h2
  obtain rfl : a = 0x30#16 := BitVec.eq_of_toNat_eq (by omega)
  revert e
  decide

theorem witness_LookupFindsTheOneDevice :
    devicesWellFormed listAB = true ∧ answering 0x20 0x2F [] ∈ listAB ∧ respondsTo (answering 0x20 0x2F []) 0x20 = true ∧
    respondsTo (answering 0x20 0x2F []) 0x2F = true := by
  decide

/-- A device whose hooks fail. -/
def failing : Device := { answering 0x20 0x2F [] with startup := some 3, shutdown := some 4 }

theorem witness_HooksStopAtFirstFailure :
    (∀ dev ∈ (withDevices listAB).config.devices, dev.startup = none ∧ dev.shutdown = none) ∧
    ((withDevices [answering 0x10 0x1F [], failing, answering 0x30 0x3F []]).config.devices =
        [answering 0x10 0x1F []] ++ failing :: [answering 0x30 0x3F []] ∧
      (∀ b ∈ [answering 0x10 0x1F []], b.startup = none ∧ b.shutdown = none) ∧
      failing.startup = some 3 ∧ failing.shutdown = some 4) := by
  decide

theorem witness_LoadImageCells :
    smallCore.started = false ∧ smallImage.length = smallCore.imageLength ∧ (smallImage.take 15).length ≠ smallCore.imageLength ∧
    1 < smallCore.config.codeSize ∧ 1 < smallCore.config.dataSize ∧ 0 < smallCore.config.stackSize ∧
    0 < smallCore.config.callSize ∧ ({ smallCore with started := true } : State).started = true := by
  decide

theorem witness_DumpOfLoadedImage :
    State.reset.started = false ∧ (halts State.reset).halted = true ∧
    ({ smallCore with started := true } : State).halted = false ∧ 7 < 4 * smallCore.config.codeSize ∧
    3 < 2 * smallCore.config.dataSize ∧ 1 < 2 * smallCore.config.stackSize ∧ 1 < 2 * smallCore.config.callSize ∧
    refusalOf (smallCore.loadImage smallImage) = none := by
  decide

/-- A core whose unit `u` is in one state. -/
def inPhase (u : UnitId) (x : UnitState) : State := State.reset.setUnit u x

theorem witness_UnitTransitions :
    (unitAccepts .alu 0 State.reset = true ∧ unitAccepts .alu 18 State.reset = true) ∧
    (State.reset.unit .alu).phase = .idle ∧ ready.unit .alu = .awaiting ∧
    (let x : UnitState := { running := true, phase := .awaitOperand 0 [], stopping := false };
      (inPhase .alu x).unit .alu = x ∧ 2 ≠ [].length (α := BitVec 32) + 1 ∧ [].length (α := BitVec 32) + 1 ≠ unitArity .alu) ∧
    (let x : UnitState := { running := true, phase := .awaitOperand 18 [9], stopping := false };
      (inPhase .alu x).unit .alu = x ∧ [9#32].length + 1 = unitArity .alu ∧
      (match unitCompute .alu 18 ([9] ++ [3]) (inPhase .alu x) with
        | .done r _ => r == .word 3
        | _ => false) = true ∧
      (match unitCompute .alu 18 ([9] ++ [0]) (inPhase .alu x) with
        | .raised e _ => e == .divideByZero
        | _ => false) = true) ∧
    (∀ o ∈ [UnitOutcome.result (.word 8), UnitOutcome.error .divideByZero], ∀ b ∈ [false, true],
      (inPhase .alu { running := true, phase := .emit o, stopping := b }).unit .alu =
        { running := true, phase := .emit o, stopping := b }) := by
  decide

/-- A core whose ALU offers a result. -/
def offering : State := inPhase .alu { running := true, phase := .emit (.result (.word 8)), stopping := false }

theorem witness_UnitEventsKeepInvariant :
    State.reset.Inv ∧ answers (unitEvent .alu .start State.reset) = some (some .ok, none) ∧ UnitId.rf ≠ UnitId.alu := by
  decide

theorem witness_UnitEventsKeepInvariant_started :
    ({ State.reset with started := true } : State).Inv ∧
    answers (unitEvent .alu .start { State.reset with started := true }) = some (some .ok, none) := by
  decide

theorem witness_UnitEventsKeepInvariant_outcome :
    offering.Inv ∧ answers (unitEvent .alu .takeResult offering) = some (none, some (.result (.word 8))) := by
  decide

theorem witness_UnitOperations :
    ready.unit .rf = .awaiting ∧ ready.unit .dec = .awaiting ∧ ready.unit .alu = .awaiting ∧ ready.unit .cmp = .awaiting ∧
    ready.unit .bru = .awaiting ∧ (1#8).toNat < 2 ∧ 2 ≤ (2#8).toNat ∧
    aluFormula (21#5).toNat (0x8000#16).toNat (15#16).toNat = some (some 1) ∧
    aluFormula (18#5).toNat (9#16).toNat (0#16).toNat = some none ∧ aluFormula (22#5).toNat 1 1 = none ∧
    (23#5).toNat < 24 ∧ 24 ≤ (24#5).toNat ∧ (∀ n ∈ List.range 17, (BitVec.ofNat 5 n).toNat = n) ∧ 17 ≤ (17#5).toNat ∧
    1#16 ≠ 0#16 := by
  decide

theorem witness_StorageUnitOperations :
    ready.unit .memCode = .awaiting ∧ ready.unit .memData = .awaiting ∧ ready.unit .memStack = .awaiting ∧
    ready.unit .memCall = .awaiting ∧ ready.unit .sys = .awaiting ∧
    (∀ seg ∈ [Segment.code, Segment.stack, Segment.call],
      (size seg 4 ready).size seg ≤ (4#16).toNat ∧ (3#16).toNat < (size seg 4 ready).size seg) ∧
    (∀ script ∈ [[DeviceAnswer.ok 7], [.error 9], [.never]], ∀ code ∈ [0#8, 1#8],
      (memRead 0xFF10 (withDevice (scripted script) ready) matches .hung _) =
        (operated .memData code [0xFF10, 0] (withDevice (scripted script) ready)).isNone) ∧
    operated .memData 0 [0xFF00, 0] ready = some (.error (.unmappedIoAddress 0xFF00)) ∧
    (ready.started = false ∧ ({ ready with started := true } : State).started = true) ∧
    systemCallTable ready.config 3 = .invalid ∧ systemCallTable ready.config 255 = .invalid := by
  decide

theorem witness_CompositionRefinesStep :
    ready.units = Units.all .awaiting ∧ ready.running = true ∧
    ((loaded [] 0x00000004).running = true ∧ ({ loaded [] 0x00000004 with units := Units.all .awaiting } : State).running = true) := by
  decide

end Sys2Proof.Tests
end

section
/-! PROOFS. The 83 instructions as 16 actions of the machine: what helps to prove, tied to `exec` by `exec_eq_run` and to the
operand tables by the equations after it. A later proof about every instruction is a proof about every action. -/

namespace Sys2Proof.Machine

open Sys2Proof.Statements

/-- An input of an instruction: a register it reads, or the immediate. -/
inductive Source where
  | reg (r : RegIdx)
  | imm (v : Word)

def Source.value : Source → State → Word
  | .reg r, s => s.reg r
  | .imm v, _ => v

def Source.registers : Source → List RegIdx
  | .reg r => [r]
  | .imm _ => []

def Place.registers : Place → List RegIdx
  | .reg b | .memByReg b => [b]
  | .memByImm _ => []

def Operand.registers : Operand → List RegIdx
  | .place p => p.registers
  | .literal _ => []

/-- The registers a copy writes through its destination. -/
def Place.destinations : Place → List RegIdx
  | .reg b => [b]
  | .memByReg _ | .memByImm _ => []

/-- The data address a place names, as a list: empty for a register. -/
def Place.addresses (p : Place) (s : State) : List Word :=
  (placeAddress p s).toList

def Operand.addresses : Operand → State → List Word
  | .place p, s => p.addresses s
  | .literal _, _ => []

/-- What an instruction does, by the shared operation its rule is built on. -/
inductive Action where
  | arithmetic (f : ArithFn) (d : RegIdx) (a b : Source)
  | copy (dst : Place) (src : Operand)
  | swapRegisters (d s0 : RegIdx)
  | swapRegisterCell (d : RegIdx) (cell : Source)
  | swapCells (d : RegIdx) (cell : Source)
  | push (v : Source)
  | pop (d : RegIdx)
  | peek (d : RegIdx)
  | compare (p : Word → Word → Bool) (c : Bool → Bool → Bool) (s0 s1 : RegIdx)
  | branch (target : Source) (isCall : Bool)
  | conditional (sense : Bool → Bool) (target : Source) (isCall : Bool)
  | select (sense : Bool → Bool) (s0 s1 : RegIdx) (isCall : Bool)
  | ret
  | terminate
  | panic (payload : Word)
  | putc (s0 s1 : RegIdx)

/-- The operation of the model an action stands for. -/
def Action.run : Action → State → Res Unit
  | .arithmetic f d a b, s => Machine.arithmetic f d (a.value s) (b.value s) s
  | .copy dst src, s => copyInto dst src s
  | .swapRegisters d s0, s => Machine.swapRegisters d s0 s
  | .swapRegisterCell d cell, s => Machine.swapRegisterCell d (cell.value s) s
  | .swapCells d cell, s => Machine.swapCells (s.reg d) (cell.value s) s
  | .push v, s => Machine.push .dataStack (v.value s) s
  | .pop d, s => (checkWritable d s).andThen fun _ s1 => (Machine.pop .dataStack s1).andThen fun v s2 => writeReg d v s2
  | .peek d, s => (checkWritable d s).andThen fun _ s1 => (Machine.peek .dataStack s1).andThen fun v s2 => writeReg d v s2
  | .compare p c s0 s1, s => compareWith p c s0 s1 s
  | .branch target isCall, s => Machine.branch (target.value s) isCall s
  | .conditional sense target isCall, s => Machine.conditional (sense (boolOf s.pred)) (target.value s) isCall s
  | .select sense s0 s1 isCall, s => selectBranch (sense (boolOf s.pred)) (s.reg s0) (s.reg s1) isCall s
  | .ret, s => (Machine.pop .callStack s).andThen fun v t => .done () (t.jumpTo v)
  | .terminate, s => .done () { s with halted := true }
  | .panic payload, s => .raised (.panic payload) s
  | .putc s0 s1, s => .done () (s.emit (putcCode (s0 == s1) (s.reg s0) (s.reg s1)))

/-- The action of each instruction. A unary arithmetic instruction ignores its second argument; the 0 that register 0 reads
stands for it. -/
def action : Instr → Action
  | .add d s0 s1 => .arithmetic addFn d (.reg s0) (.reg s1)
  | .sub d s0 s1 => .arithmetic subFn d (.reg s0) (.reg s1)
  | .mul d s0 s1 => .arithmetic mulFn d (.reg s0) (.reg s1)
  | .div d s0 s1 => .arithmetic divFn d (.reg s0) (.reg s1)
  | .rem d s0 s1 => .arithmetic remFn d (.reg s0) (.reg s1)
  | .shl d s0 s1 => .arithmetic shlFn d (.reg s0) (.reg s1)
  | .shr d s0 s1 => .arithmetic shrFn d (.reg s0) (.reg s1)
  | .and d s0 s1 => .arithmetic andFn d (.reg s0) (.reg s1)
  | .or d s0 s1 => .arithmetic orFn d (.reg s0) (.reg s1)
  | .not d s0 => .arithmetic notFn d (.reg s0) (.imm 0#16)
  | .xor d s0 s1 => .arithmetic xorFn d (.reg s0) (.reg s1)
  | .inc d s0 => .arithmetic incFn d (.reg s0) (.imm 0#16)
  | .dec d s0 => .arithmetic decFn d (.reg s0) (.imm 0#16)
  | .double d s0 => .arithmetic doubleFn d (.reg s0) (.imm 0#16)
  | .halve d s0 => .arithmetic halveFn d (.reg s0) (.imm 0#16)
  | .addi d imm => .arithmetic addFn d (.reg (imm.setWidth 8)) (.imm imm)
  | .subi d imm => .arithmetic subFn d (.reg (imm.setWidth 8)) (.imm imm)
  | .muli d imm => .arithmetic mulFn d (.reg (imm.setWidth 8)) (.imm imm)
  | .divi d imm => .arithmetic divFn d (.reg (imm.setWidth 8)) (.imm imm)
  | .remi d imm => .arithmetic remFn d (.reg (imm.setWidth 8)) (.imm imm)
  | .shli d imm => .arithmetic shlFn d (.reg (imm.setWidth 8)) (.imm imm)
  | .shri d imm => .arithmetic shrFn d (.reg (imm.setWidth 8)) (.imm imm)
  | .move d s0 => .copy (.reg d) (.place (.reg s0))
  | .swap d s0 => .swapRegisters d s0
  | .swapRm d s0 => .swapRegisterCell d (.reg s0)
  | .swapMm d s0 => .swapCells d (.reg s0)
  | .swapRi d imm => .swapRegisterCell d (.imm imm)
  | .swapMi d imm => .swapCells d (.imm imm)
  | .set d imm => .copy (.reg d) (.literal imm)
  | .load d s0 => .copy (.reg d) (.place (.memByReg s0))
  | .loadI d imm => .copy (.reg d) (.place (.memByImm imm))
  | .store d s0 => .copy (.memByReg d) (.place (.reg s0))
  | .storeM d s0 => .copy (.memByReg d) (.place (.memByReg s0))
  | .storeIa d imm => .copy (.memByReg d) (.place (.memByImm imm))
  | .storeIv d imm => .copy (.memByReg d) (.literal imm)
  | .push s0 => .push (.reg s0)
  | .pushI imm => .push (.imm imm)
  | .pop d => .pop d
  | .peek d => .peek d
  | .eq s0 s1 => .compare predEq combineOverwrite s0 s1
  | .eqAnd s0 s1 => .compare predEq combineAnd s0 s1
  | .eqOr s0 s1 => .compare predEq combineOr s0 s1
  | .eqXor s0 s1 => .compare predEq combineXor s0 s1
  | .neq s0 s1 => .compare predNeq combineOverwrite s0 s1
  | .neqAnd s0 s1 => .compare predNeq combineAnd s0 s1
  | .neqOr s0 s1 => .compare predNeq combineOr s0 s1
  | .neqXor s0 s1 => .compare predNeq combineXor s0 s1
  | .lt s0 s1 => .compare predLt combineOverwrite s0 s1
  | .ltAnd s0 s1 => .compare predLt combineAnd s0 s1
  | .ltOr s0 s1 => .compare predLt combineOr s0 s1
  | .ltXor s0 s1 => .compare predLt combineXor s0 s1
  | .gt s0 s1 => .compare predGt combineOverwrite s0 s1
  | .gtAnd s0 s1 => .compare predGt combineAnd s0 s1
  | .gtOr s0 s1 => .compare predGt combineOr s0 s1
  | .gtXor s0 s1 => .compare predGt combineXor s0 s1
  | .le s0 s1 => .compare predLe combineOverwrite s0 s1
  | .leAnd s0 s1 => .compare predLe combineAnd s0 s1
  | .leOr s0 s1 => .compare predLe combineOr s0 s1
  | .leXor s0 s1 => .compare predLe combineXor s0 s1
  | .ge s0 s1 => .compare predGe combineOverwrite s0 s1
  | .geAnd s0 s1 => .compare predGe combineAnd s0 s1
  | .geOr s0 s1 => .compare predGe combineOr s0 s1
  | .geXor s0 s1 => .compare predGe combineXor s0 s1
  | .bI imm => .branch (.imm imm) false
  | .callI imm => .branch (.imm imm) true
  | .bR s0 => .branch (.reg s0) false
  | .callR s0 => .branch (.reg s0) true
  | .btI imm => .conditional id (.imm imm) false
  | .calltI imm => .conditional id (.imm imm) true
  | .btR s0 => .conditional id (.reg s0) false
  | .calltR s0 => .conditional id (.reg s0) true
  | .bfI imm => .conditional not (.imm imm) false
  | .callfI imm => .conditional not (.imm imm) true
  | .bfR s0 => .conditional not (.reg s0) false
  | .callfR s0 => .conditional not (.reg s0) true
  | .iteT s0 s1 => .select id s0 s1 false
  | .iteF s0 s1 => .select not s0 s1 false
  | .itecallT s0 s1 => .select id s0 s1 true
  | .itecallF s0 s1 => .select not s0 s1 true
  | .ret => .ret
  | .syscallTerminate => .terminate
  | .syscallPanic imm => .panic imm
  | .syscallPutc s0 s1 => .putc s0 s1

/-- The meaning of every instruction is its action, run. -/
theorem exec_eq_run (i : Instr) (s : State) : exec i s = ((action i).run s).outcome := by
  cases i <;> rfl

/-- The registers an action names in operand bytes, read or written. -/
def Action.registers : Action → List RegIdx
  | .arithmetic _ d a b => d :: (a.registers ++ b.registers)
  | .copy dst src => dst.registers ++ src.registers
  | .swapRegisters d s0 => [d, s0]
  | .swapRegisterCell d cell | .swapCells d cell => d :: cell.registers
  | .push v => v.registers
  | .pop d | .peek d => [d]
  | .compare _ _ s0 s1 | .select _ s0 s1 _ | .putc s0 s1 => [s0, s1]
  | .branch target _ | .conditional _ target _ => target.registers
  | .ret | .terminate | .panic _ => []

theorem registers_action (i : Instr) : (action i).registers = i.operands.1 := by
  cases i <;> rfl

/-- The registers an action writes through an operand byte, in the order in which it checks them. -/
def Action.destinations : Action → List RegIdx
  | .arithmetic _ d _ _ | .swapRegisterCell d _ | .pop d | .peek d => [d]
  | .copy dst _ => dst.destinations
  | .swapRegisters d s0 => [d, s0]
  | _ => []

theorem destinations_action (i : Instr) : (action i).destinations = destinations i := by
  cases i <;> rfl

/-- What an instruction may change: registers, memory cells, and the device addresses it may access; whether it may suppress
the advance, halt the core, or print. -/
structure Footprint where
  regs : List RegIdx
  cells : List (Segment × Word)
  addresses : List Word
  jumps : Bool
  halts : Bool
  prints : Bool

/-- The footprint the operand tables give an instruction in the state it starts from. -/
def footprint (i : Instr) (s : State) : Footprint :=
  { regs := destinations i ++ implicitDestinations i
    cells := storedCells i s
    addresses := dataAddresses i s
    jumps := decide (8#8 ∈ implicitDestinations i)
    halts := i matches .syscallTerminate
    prints := i matches .syscallPutc _ _ }

def Footprint.empty : Footprint :=
  { regs := [], cells := [], addresses := [], jumps := false, halts := false, prints := false }

/-- A jump writes `ip`; a call stores the return address too. -/
def Footprint.jump (isCall : Bool) (s : State) : Footprint :=
  { Footprint.empty with
    regs := if isCall then [ipIdx, cspIdx] else [ipIdx]
    cells := if isCall then [(.call, pushAddress .callStack s)] else []
    jumps := true }

def Action.footprint : Action → State → Footprint
  | .arithmetic _ d _ _, _ | .peek d, _ => { Footprint.empty with regs := [d] }
  | .copy dst src, s =>
    { Footprint.empty with
      regs := dst.destinations
      cells := (dst.addresses s).map (.data, ·)
      addresses := dst.addresses s ++ src.addresses s }
  | .swapRegisters d s0, _ => { Footprint.empty with regs := [d, s0] }
  | .swapRegisterCell d cell, s =>
    { Footprint.empty with regs := [d], cells := [(.data, cell.value s)], addresses := [cell.value s] }
  | .swapCells d cell, s =>
    { Footprint.empty with
      cells := [(.data, s.reg d), (.data, cell.value s)], addresses := [s.reg d, cell.value s] }
  | .push _, s => { Footprint.empty with regs := [spIdx], cells := [(.stack, pushAddress .dataStack s)] }
  | .pop d, _ => { Footprint.empty with regs := [d, spIdx] }
  | .compare _ _ _ _, _ => { Footprint.empty with regs := [predIdx] }
  | .branch _ isCall, s | .conditional _ _ isCall, s | .select _ _ _ isCall, s => Footprint.jump isCall s
  | .ret, _ => { Footprint.empty with regs := [ipIdx, cspIdx], jumps := true }
  | .terminate, _ => { Footprint.empty with halts := true }
  | .panic _, _ => Footprint.empty
  | .putc _ _, _ => { Footprint.empty with prints := true }

theorem footprint_action (i : Instr) (s : State) : (action i).footprint s = footprint i s := by
  cases i <;> rfl

/-- The only arithmetic functions that fail are the divisions, and they fail on a divisor of 0 only. -/
theorem arithmetic_defined {i : Instr} {f : ArithFn} {d : RegIdx} {a b : Source} (h : action i = .arithmetic f d a b)
    {s : State} (hdiv : divisor i s ≠ some 0#16) : f (a.value s) (b.value s) ≠ none := by
  cases i <;> cases h
  case div | divi => simpa [divisor, divFn, Source.value] using hdiv
  case rem | remi => simpa [divisor, remFn, Source.value] using hdiv
  all_goals exact Option.some_ne_none _

end Sys2Proof.Machine
end

section
/-! PROOFS. What an instruction can reach: the elementary updates its footprint allows, in any order. That every action stays
within its footprint is proved once, operation by operation; frames and invariants are inductions on `Reaches`. -/

namespace Sys2Proof.Machine

open Sys2Proof.Statements

/-- `t` comes from `s` by elementary updates within the footprint `f`. A stored cell lies inside its segment, and a device
is accessed above RAM only (20_memory.md R68, R75). -/
inductive Reaches (f : Footprint) (s : State) : State → Prop where
  | start : Reaches f s s
  | setReg {t : State} (h : Reaches f s t) {r : RegIdx} (hr : r ∈ f.regs) (hw : 2 ≤ r.toNat) (v : Word) :
    Reaches f s (t.setReg r v)
  | store {t : State} (h : Reaches f s t) {seg : Segment} {a : Word} (hc : (seg, a) ∈ f.cells) (hseg : seg ≠ .code)
    (ha : a.toNat < t.size seg) (v : Word) : Reaches f s (t.setMem seg ((t.mem seg).writeWord a.toNat v))
  | access {t : State} (h : Reaches f s t) {p : IoAccess} (hp : accessAddress p ∈ f.addresses)
    (ha : t.config.dataSize ≤ (accessAddress p).toNat) : Reaches f s { t with io := t.io ++ [p] }
  | suppressAdvance {t : State} (h : Reaches f s t) (hj : f.jumps = true) : Reaches f s { t with advancePc := false }
  | halt {t : State} (h : Reaches f s t) (hh : f.halts = true) : Reaches f s { t with halted := true }
  | emit {t : State} (h : Reaches f s t) (hp : f.prints = true) (c : BitVec 32) : Reaches f s (t.emit c)

/-- The state an operation leaves, completed or ended by an error, satisfies `P`. -/
def Res.Ends {α : Type} (P : State → Prop) : Res α → Prop
  | .done _ s => P s
  | .raised _ s => P s
  | .hung _ => True

@[simp] theorem Res.ends_done {α : Type} (P : State → Prop) (a : α) (s : State) : (Res.done a s).Ends P ↔ P s := Iff.rfl

@[simp] theorem Res.ends_raised {α : Type} (P : State → Prop) (e : Error) (s : State) :
    (Res.raised e s : Res α).Ends P ↔ P s := Iff.rfl

@[simp] theorem Res.ends_hung {α : Type} (P : State → Prop) (why : Fault) : (Res.hung why : Res α).Ends P := trivial

theorem Res.ends_andThen {α β : Type} {P : State → Prop} {r : Res α} {g : α → State → Res β} (hr : r.Ends P)
    (hg : ∀ a t, r = .done a t → P t → (g a t).Ends P) : (r.andThen g).Ends P := by
  cases r with
  | done a t => exact hg a t rfl hr
  | raised e t => exact hr
  | hung why => trivial

/-- An instruction that answers a next state left a state satisfying `P`, or took an error there. -/
theorem Res.ends_of_outcome {P : State → Prop} {r : Res Unit} {t : State} (hr : r.Ends P) (h : r.outcome = .next t) :
    P t ∨ ∃ e u, P u ∧ t = u.takeError e := by
  rcases Res.outcome_eq_next.mp h with rfl | ⟨e, u, rfl, rfl⟩
  · exact .inl hr
  · exact .inr ⟨e, u, hr, rfl⟩

/-! ### The fields a memory update leaves, whatever the segment -/

@[simp] theorem State.setMem_config (s : State) (seg : Segment) (m : Memory) : (s.setMem seg m).config = s.config := by
  cases seg <;> rfl
@[simp] theorem State.setMem_regs (s : State) (seg : Segment) (m : Memory) : (s.setMem seg m).regs = s.regs := by
  cases seg <;> rfl
@[simp] theorem State.setMem_advancePc (s : State) (seg : Segment) (m : Memory) :
    (s.setMem seg m).advancePc = s.advancePc := by
  cases seg <;> rfl
@[simp] theorem State.setMem_halted (s : State) (seg : Segment) (m : Memory) : (s.setMem seg m).halted = s.halted := by
  cases seg <;> rfl
@[simp] theorem State.setMem_error (s : State) (seg : Segment) (m : Memory) : (s.setMem seg m).error = s.error := by
  cases seg <;> rfl
@[simp] theorem State.setMem_out (s : State) (seg : Segment) (m : Memory) : (s.setMem seg m).out = s.out := by
  cases seg <;> rfl
@[simp] theorem State.setMem_io (s : State) (seg : Segment) (m : Memory) : (s.setMem seg m).io = s.io := by
  cases seg <;> rfl
@[simp] theorem State.setMem_started (s : State) (seg : Segment) (m : Memory) : (s.setMem seg m).started = s.started := by
  cases seg <;> rfl
@[simp] theorem State.setMem_units (s : State) (seg : Segment) (m : Memory) : (s.setMem seg m).units = s.units := by
  cases seg <;> rfl
@[simp] theorem State.setMem_reg (s : State) (seg : Segment) (m : Memory) (r : RegIdx) :
    (s.setMem seg m).reg r = s.reg r := by
  cases seg <;> rfl

@[simp] theorem State.mem_setMem_self (s : State) (seg : Segment) (m : Memory) : (s.setMem seg m).mem seg = m := by
  cases seg <;> rfl

theorem State.mem_setMem_of_ne (s : State) {seg seg' : Segment} (h : seg' ≠ seg) (m : Memory) :
    (s.setMem seg m).mem seg' = s.mem seg' := by
  cases seg <;> cases seg' <;> first | rfl | exact absurd rfl h

@[simp] theorem State.setReg_mem (s : State) (i : RegIdx) (v : Word) (seg : Segment) : (s.setReg i v).mem seg = s.mem seg := by
  cases seg <;> rfl

@[simp] theorem State.setReg_size (s : State) (i : RegIdx) (v : Word) (seg : Segment) :
    (s.setReg i v).size seg = s.size seg := by
  cases seg <;> rfl

/-! ### The operations stay within a footprint that names what they touch -/

section Operations

variable {f : Footprint} {s t : State}

theorem checkWritable_reaches (h : Reaches f s t) (i : RegIdx) : (checkWritable i t).Ends (Reaches f s) := by
  rcases checkWritable_cases i t with ⟨_, hc⟩ | ⟨_, hc⟩ <;> rw [hc] <;> exact h

theorem writeReg_reaches (h : Reaches f s t) {i : RegIdx} (hi : i ∈ f.regs) (v : Word) :
    (writeReg i v t).Ends (Reaches f s) := by
  rcases writeReg_cases i v t with ⟨_, hw⟩ | ⟨hi2, hw⟩ <;> rw [hw]
  · exact h
  · exact h.setReg hi hi2 v

theorem memProbe_reaches (h : Reaches f s t) (a : Word) : (memProbe a t).Ends (Reaches f s) := by
  rcases memProbe_cases a t with ⟨_, hp⟩ | ⟨_, hp⟩ <;> rw [hp] <;> exact h

theorem callDevice_reaches (h : Reaches f s t) (dev : Device) {p : IoAccess} (hp : accessAddress p ∈ f.addresses)
    (ha : t.config.dataSize ≤ (accessAddress p).toNat) : (callDevice dev p t).Ends (Reaches f s) := by
  rcases callDevice_cases dev p t with ⟨v, _, hc⟩ | ⟨e, _, hc⟩ | ⟨_, hc⟩ <;> rw [hc]
  · exact h.access hp ha
  · exact h.access hp ha
  · trivial

theorem memRead_reaches (h : Reaches f s t) {a : Word} (ha : a ∈ f.addresses) : (memRead a t).Ends (Reaches f s) := by
  unfold memRead
  rcases route_cases t a with ⟨_, hr⟩ | ⟨hio, dev, _, hr⟩ | ⟨_, _, hr⟩ <;> rw [hr]
  · exact h
  · exact callDevice_reaches h dev (p := .load a) ha hio
  · exact h

theorem memWrite_reaches (h : Reaches f s t) {a : Word} (ha : a ∈ f.addresses) (hc : (.data, a) ∈ f.cells) (v : Word) :
    (memWrite a v t).Ends (Reaches f s) := by
  unfold memWrite
  rcases route_cases t a with ⟨hram, hr⟩ | ⟨hio, dev, _, hr⟩ | ⟨_, _, hr⟩ <;> rw [hr]
  · exact h.store hc (by decide) hram v
  · exact Res.ends_andThen (callDevice_reaches h dev (p := .store a v) ha hio) fun _ _ _ hu => hu
  · exact h

/-- A read leaves the registers; with it, an address computed before the read still names the same cell after it. -/
theorem memRead_done_reg {a v : Word} {u : State} (h : memRead a t = .done v u) (r : RegIdx) : u.reg r = t.reg r := by
  rcases memRead_done h with ⟨_, _, rfl⟩ | ⟨_, _, _, rfl⟩
  · rfl
  · exact State.withIo_reg t _ r

theorem stackPointer_writable (k : StackId) : 2 ≤ (stackPointer k).toNat := by
  cases k <;> decide

theorem push_reaches (h : Reaches f s t) {k : StackId} (hp : stackPointer k ∈ f.regs)
    (hc : (stackSegment k, pushAddress k t) ∈ f.cells) (v : Word) : (push k v t).Ends (Reaches f s) := by
  rcases push_cases k v t with ⟨_, hpush⟩ | ⟨hlt, hpush⟩ <;> rw [hpush]
  · exact h
  · have hmoved := h.setReg hp (stackPointer_writable k) (pushAddress k t)
    have hstored := hmoved.store hc (by cases k <;> decide) (by simpa using hlt) v
    simpa using hstored

theorem peek_reaches (h : Reaches f s t) (k : StackId) : (peek k t).Ends (Reaches f s) := by
  rcases peek_cases k t with ⟨_, hp⟩ | ⟨_, hp⟩ <;> rw [hp] <;> exact h

theorem pop_reaches (h : Reaches f s t) {k : StackId} (hp : stackPointer k ∈ f.regs) : (pop k t).Ends (Reaches f s) := by
  rcases pop_cases k t with ⟨_, hpop⟩ | ⟨_, hpop⟩ <;> rw [hpop]
  · exact h
  · exact h.setReg hp (stackPointer_writable k) _

theorem jumpTo_reaches (h : Reaches f s t) (hip : ipIdx ∈ f.regs) (hj : f.jumps = true) (addr : Word) :
    Reaches f s (t.jumpTo addr) :=
  (h.setReg hip (by decide) addr).suppressAdvance hj

theorem branch_reaches (h : Reaches f s t) (hip : ipIdx ∈ f.regs) (hj : f.jumps = true) {isCall : Bool}
    (hcall : isCall = true → cspIdx ∈ f.regs ∧ (.call, pushAddress .callStack t) ∈ f.cells) (addr : Word) :
    (branch addr isCall t).Ends (Reaches f s) := by
  cases isCall with
  | false => exact jumpTo_reaches h hip hj addr
  | true =>
    obtain ⟨hcsp, hcell⟩ := hcall rfl
    exact Res.ends_andThen (push_reaches h (k := .callStack) hcsp hcell _) fun _ _ _ hu => jumpTo_reaches hu hip hj addr

theorem arithmetic_reaches (h : Reaches f s t) (g : ArithFn) {d : RegIdx} (hd : d ∈ f.regs) (a b : Word) :
    (arithmetic g d a b t).Ends (Reaches f s) := by
  rcases arithmetic_cases g d a b t with ⟨_, hg⟩ | ⟨_, _, _, hg⟩ | ⟨r, _, hd2, hg⟩ <;> rw [hg]
  · exact h
  · exact h
  · exact h.setReg hd hd2 r

theorem admitPlace_reaches (h : Reaches f s t) (p : Place) : (admitPlace p t).Ends (Reaches f s) := by
  cases p with
  | reg b => exact checkWritable_reaches h b
  | memByReg b => exact memProbe_reaches h _
  | memByImm imm => exact memProbe_reaches h imm

/-- An admission check that completes changes nothing. -/
theorem admitPlace_done {p : Place} {u : State} (h : admitPlace p t = .done () u) : u = t := by
  cases p with
  | reg b =>
    rcases checkWritable_cases b t with ⟨_, hc⟩ | ⟨_, hc⟩ <;> cases hc.symm.trans h
    rfl
  | memByReg b =>
    rcases memProbe_cases (t.reg b) t with ⟨_, hp⟩ | ⟨_, hp⟩ <;> cases hp.symm.trans h
    rfl
  | memByImm imm =>
    rcases memProbe_cases imm t with ⟨_, hp⟩ | ⟨_, hp⟩ <;> cases hp.symm.trans h
    rfl

theorem readOperand_reaches (h : Reaches f s t) {o : Operand} (ho : ∀ a ∈ o.addresses t, a ∈ f.addresses) :
    (readOperand o t).Ends (Reaches f s) := by
  rcases o with (b | b | imm) | imm
  · exact h
  · exact memRead_reaches h (ho _ (List.mem_singleton_self _))
  · exact memRead_reaches h (ho _ (List.mem_singleton_self _))
  · exact h

/-- A source operand that is read leaves the registers. -/
theorem readOperand_done_reg {o : Operand} {v : Word} {u : State} (h : readOperand o t = .done v u) (r : RegIdx) :
    u.reg r = t.reg r := by
  rcases o with (b | b | imm) | imm
  · cases h; rfl
  · exact memRead_done_reg h r
  · exact memRead_done_reg h r
  · cases h; rfl

/-- The address a place names depends on the registers only. -/
theorem Place.addresses_congr {u : State} (h : ∀ r, u.reg r = t.reg r) (p : Place) : p.addresses u = p.addresses t := by
  cases p with
  | memByReg b => simp [Place.addresses, placeAddress, h]
  | reg b => rfl
  | memByImm imm => rfl

theorem writePlace_reaches (h : Reaches f s t) {p : Place} (hd : ∀ r ∈ p.destinations, r ∈ f.regs)
    (ha : ∀ a ∈ p.addresses t, a ∈ f.addresses ∧ (.data, a) ∈ f.cells) (v : Word) :
    (writePlace p v t).Ends (Reaches f s) := by
  cases p with
  | reg b => exact writeReg_reaches h (hd b (List.mem_singleton_self _)) v
  | memByReg b =>
    obtain ⟨haddr, hcell⟩ := ha _ (List.mem_singleton_self _)
    exact memWrite_reaches h haddr hcell v
  | memByImm imm =>
    obtain ⟨haddr, hcell⟩ := ha _ (List.mem_singleton_self _)
    exact memWrite_reaches h haddr hcell v

end Operations

/-! ### Every action stays within its footprint -/

theorem copyInto_reaches (dst : Place) (src : Operand) (s : State) :
    (copyInto dst src s).Ends (Reaches ((Action.copy dst src).footprint s) s) := by
  refine Res.ends_andThen (admitPlace_reaches .start dst) fun _ t hadmit ht => ?_
  cases admitPlace_done hadmit
  refine Res.ends_andThen (readOperand_reaches ht fun a ha => by simp [Action.footprint, ha]) fun v u hread hu => ?_
  have haddr : dst.addresses u = dst.addresses s := Place.addresses_congr (readOperand_done_reg hread) dst
  refine writePlace_reaches hu (fun r hr => by simpa [Action.footprint] using hr) (fun a ha => ?_) v
  rw [haddr] at ha
  simp [Action.footprint, ha]

theorem swapRegisters_reaches (d s0 : RegIdx) (s : State) :
    (swapRegisters d s0 s).Ends (Reaches ((Action.swapRegisters d s0).footprint s) s) := by
  refine Res.ends_andThen (checkWritable_reaches .start d) fun _ _ _ h1 => ?_
  refine Res.ends_andThen (checkWritable_reaches h1 s0) fun _ _ _ h2 => ?_
  refine Res.ends_andThen (writeReg_reaches h2 (by simp [Action.footprint]) _) fun _ _ _ h3 => ?_
  exact writeReg_reaches h3 (by simp [Action.footprint]) _

theorem swapRegisterCell_reaches (d : RegIdx) (cell : Source) (s : State) :
    (swapRegisterCell d (cell.value s) s).Ends (Reaches ((Action.swapRegisterCell d cell).footprint s) s) := by
  refine Res.ends_andThen (checkWritable_reaches .start d) fun _ _ _ h1 => ?_
  refine Res.ends_andThen (memRead_reaches h1 (by simp [Action.footprint])) fun _ _ _ h2 => ?_
  refine Res.ends_andThen (memWrite_reaches h2 (by simp [Action.footprint]) (by simp [Action.footprint]) _) fun _ _ _ h3 => ?_
  exact writeReg_reaches h3 (by simp [Action.footprint]) _

theorem swapCells_reaches (d : RegIdx) (cell : Source) (s : State) :
    (swapCells (s.reg d) (cell.value s) s).Ends (Reaches ((Action.swapCells d cell).footprint s) s) := by
  refine Res.ends_andThen (memProbe_reaches .start _) fun _ _ _ h1 => ?_
  refine Res.ends_andThen (memProbe_reaches h1 _) fun _ _ _ h2 => ?_
  refine Res.ends_andThen (memRead_reaches h2 (by simp [Action.footprint])) fun _ _ _ h3 => ?_
  refine Res.ends_andThen (memRead_reaches h3 (by simp [Action.footprint])) fun _ _ _ h4 => ?_
  refine Res.ends_andThen (memWrite_reaches h4 (by simp [Action.footprint]) (by simp [Action.footprint]) _) fun _ _ _ h5 => ?_
  exact memWrite_reaches h5 (by simp [Action.footprint]) (by simp [Action.footprint]) _

/-- A jump that pushes only if the instruction is a call stays within the jump's footprint. -/
theorem branch_reaches_jump (addr : Word) {pushes isCall : Bool} (h : pushes = true → isCall = true) (s : State) :
    (branch addr pushes s).Ends (Reaches (Footprint.jump isCall s) s) := by
  refine branch_reaches .start ?_ rfl (fun hp => ?_) addr
  · cases isCall <;> simp [Footprint.jump]
  · cases h hp
    simp [Footprint.jump]

theorem conditional_reaches (cond : Bool) (target : Word) (isCall : Bool) (s : State) :
    (conditional cond target isCall s).Ends (Reaches (Footprint.jump isCall s) s) := by
  unfold conditional
  split
  · exact branch_reaches_jump _ id s
  · exact branch_reaches_jump _ (fun h => (Bool.and_eq_true_iff.mp h).1) s

theorem Action.run_reaches (a : Action) (s : State) : (a.run s).Ends (Reaches (a.footprint s) s) := by
  cases a with
  | arithmetic g d x y => exact arithmetic_reaches .start g (by simp [Action.footprint]) _ _
  | copy dst src => exact copyInto_reaches dst src s
  | swapRegisters d s0 => exact swapRegisters_reaches d s0 s
  | swapRegisterCell d cell => exact swapRegisterCell_reaches d cell s
  | swapCells d cell => exact swapCells_reaches d cell s
  | push v =>
    exact push_reaches (k := .dataStack) .start (List.mem_singleton_self _) (List.mem_singleton_self _) _
  | pop d =>
    refine Res.ends_andThen (checkWritable_reaches .start d) fun _ _ _ h1 => ?_
    refine Res.ends_andThen (pop_reaches h1 (by simp [Action.footprint, stackPointer])) fun _ _ _ h2 => ?_
    exact writeReg_reaches h2 (by simp [Action.footprint]) _
  | peek d =>
    refine Res.ends_andThen (checkWritable_reaches .start d) fun _ _ _ h1 => ?_
    refine Res.ends_andThen (peek_reaches h1 .dataStack) fun _ _ _ h2 => ?_
    exact writeReg_reaches h2 (by simp [Action.footprint]) _
  | compare p c s0 s1 => exact Reaches.start.setReg (List.mem_singleton_self predIdx) (by decide) _
  | branch target isCall => exact branch_reaches_jump _ id s
  | conditional sense target isCall => exact conditional_reaches _ _ isCall s
  | select sense s0 s1 isCall => exact branch_reaches_jump _ id s
  | ret =>
    refine Res.ends_andThen (pop_reaches .start (by simp [Action.footprint, stackPointer])) fun _ _ _ h1 => ?_
    exact jumpTo_reaches h1 (by simp [Action.footprint]) rfl _
  | terminate => exact Reaches.start.halt rfl
  | panic payload => exact Reaches.start
  | putc s0 s1 => exact Reaches.start.emit rfl _

/-- What an instruction that answers a next state can have done: it stayed within its footprint, and completed there or took
an error there. -/
theorem exec_reaches {i : Instr} {s t : State} (h : exec i s = .next t) :
    Reaches (footprint i s) s t ∨ ∃ e u, Reaches (footprint i s) s u ∧ t = u.takeError e := by
  rw [exec_eq_run] at h
  have hends := (action i).run_reaches s
  rw [footprint_action] at hends
  exact Res.ends_of_outcome hends h

end Sys2Proof.Machine
end

section
/-! PROOFS. What every reachable state keeps: the frame of an instruction, and the part of the machine invariant that holds
inside a step too. -/

namespace Sys2Proof.Machine

open Sys2Proof.Statements

/-! ### The frame -/

section Frame

variable {f : Footprint} {s t : State}

/-- No update touches the configuration, the units, the record that the core has started, the latched error or the code. -/
theorem Reaches.fixed (h : Reaches f s t) :
    t.config = s.config ∧ t.units = s.units ∧ t.started = s.started ∧ t.error = s.error ∧ t.code = s.code := by
  induction h with
  | start => exact ⟨rfl, rfl, rfl, rfl, rfl⟩
  | store _ _ hseg _ _ ih => simpa [← State.mem_code, State.mem_setMem_of_ne _ hseg.symm] using ih
  | setReg _ _ _ _ ih | access _ _ _ ih | suppressAdvance _ _ ih | halt _ _ ih | emit _ _ _ ih => exact ih

theorem Reaches.reg_of_not_mem (h : Reaches f s t) {r : RegIdx} (hr : r ∉ f.regs) : t.reg r = s.reg r := by
  induction h with
  | start => rfl
  | setReg _ hi _ v ih => exact (State.reg_setReg_of_ne _ (ne_of_mem_of_not_mem hi hr).symm v).trans ih
  | store _ _ _ _ _ ih => simpa using ih
  | access _ _ _ ih | suppressAdvance _ _ ih | halt _ _ ih | emit _ _ _ ih => exact ih

theorem Reaches.byteAt_of_not_stored (h : Reaches f s t) {seg : Segment} {n : Nat}
    (hn : ∀ c ∈ f.cells, c.1 = seg → n ≠ 2 * c.2.toNat ∧ n ≠ 2 * c.2.toNat + 1) : t.byteAt seg n = s.byteAt seg n := by
  induction h with
  | start => rfl
  | setReg _ _ _ _ ih => simpa [State.byteAt] using ih
  | @store u _ seg' a hc _ _ v ih =>
    refine Eq.trans ?_ ih
    by_cases hseg : seg = seg'
    · subst hseg
      obtain ⟨hlow, hhigh⟩ := hn _ hc rfl
      simp [State.byteAt, Memory.readByte_writeWord_of_ne hlow hhigh]
    · simp [State.byteAt, State.mem_setMem_of_ne _ hseg]
  | access _ _ _ ih | suppressAdvance _ _ ih | halt _ _ ih | emit _ _ _ ih => cases seg <;> exact ih

/-- Without an address above RAM no device is accessed. -/
theorem Reaches.io_of_ram (h : Reaches f s t) (hram : ∀ a ∈ f.addresses, a.toNat < s.config.dataSize) : t.io = s.io := by
  induction h with
  | start => rfl
  | access hu hp ha _ =>
    obtain ⟨hconfig, -⟩ := hu.fixed
    have := hram _ hp
    rw [hconfig] at ha
    omega
  | store _ _ _ _ _ ih => simpa using ih
  | setReg _ _ _ _ ih | suppressAdvance _ _ ih | halt _ _ ih | emit _ _ _ ih => exact ih

theorem Reaches.out_of_not_prints (h : Reaches f s t) (hp : f.prints = false) : t.out = s.out := by
  induction h with
  | start => rfl
  | emit _ hp' _ _ => simp [hp] at hp'
  | store _ _ _ _ _ ih => simpa using ih
  | setReg _ _ _ _ ih | access _ _ _ ih | suppressAdvance _ _ ih | halt _ _ ih => exact ih

theorem Reaches.halted_of_not_halts (h : Reaches f s t) (hh : f.halts = false) : t.halted = s.halted := by
  induction h with
  | start => rfl
  | halt _ hh' _ => simp [hh] at hh'
  | store _ _ _ _ _ ih => simpa using ih
  | setReg _ _ _ _ ih | access _ _ _ ih | suppressAdvance _ _ ih | emit _ _ _ ih => exact ih

theorem Reaches.advancePc_of_not_jumps (h : Reaches f s t) (hj : f.jumps = false) : t.advancePc = s.advancePc := by
  induction h with
  | start => rfl
  | suppressAdvance _ hj' _ => simp [hj] at hj'
  | store _ _ _ _ _ ih => simpa using ih
  | setReg _ _ _ _ ih | access _ _ _ ih | halt _ _ ih | emit _ _ _ ih => exact ih

end Frame

theorem footprint_prints {i : Instr} (h : ∀ s0 s1, i ≠ .syscallPutc s0 s1) (s : State) : (footprint i s).prints = false := by
  cases i with
  | syscallPutc s0 s1 => exact absurd rfl (h s0 s1)
  | _ => rfl

theorem footprint_halts {i : Instr} (h : i ≠ .syscallTerminate) (s : State) : (footprint i s).halts = false := by
  cases i with
  | syscallTerminate => exact absurd rfl h
  | _ => rfl

@[simp] theorem State.takeError_byteAt (s : State) (e : Error) (seg : Segment) (n : Nat) :
    (s.takeError e).byteAt seg n = s.byteAt seg n := by
  cases seg <;> rfl

/-- What an instruction leaves as it was when it goes from `s` to `t`: whatever its operand tables do not name. -/
structure FrameHolds (i : Instr) (s t : State) : Prop where
  reg : ∀ r, r ∉ destinations i → r ∉ implicitDestinations i → t.reg r = s.reg r
  byteAt : ∀ seg n, (∀ c ∈ storedCells i s, c.1 = seg → n ≠ 2 * c.2.toNat ∧ n ≠ 2 * c.2.toNat + 1) →
    t.byteAt seg n = s.byteAt seg n
  code : t.code = s.code
  config : t.config = s.config
  units : t.units = s.units
  started : t.started = s.started
  io : (∀ a ∈ dataAddresses i s, a.toNat < s.config.dataSize) → t.io = s.io
  out : (∀ s0 s1, i ≠ .syscallPutc s0 s1) → t.out = s.out

theorem Reaches.frameHolds {i : Instr} {s t : State} (h : Reaches (footprint i s) s t) : FrameHolds i s t := by
  obtain ⟨hconfig, hunits, hstarted, -, hcode⟩ := h.fixed
  exact
    { reg := fun r hd hi => h.reg_of_not_mem (by simp [footprint, hd, hi])
      byteAt := fun seg n hn => h.byteAt_of_not_stored hn
      code := hcode
      config := hconfig
      units := hunits
      started := hstarted
      io := h.io_of_ram
      out := fun hp => h.out_of_not_prints (footprint_prints hp s) }

/-- Taking an error changes the flags and the latch only. -/
theorem FrameHolds.takeError {i : Instr} {s t : State} (h : FrameHolds i s t) (e : Error) : FrameHolds i s (t.takeError e) :=
  { h with byteAt := fun seg n hn => (t.takeError_byteAt e seg n).trans (h.byteAt seg n hn) }

/-- The flags are those of `s` unless the instruction halts, jumps or takes an error. -/
theorem Reaches.flags {i : Instr} {s t : State} (h : Reaches (footprint i s) s t) :
    (i ≠ .syscallTerminate → t.halted = s.halted) ∧ (8#8 ∉ implicitDestinations i → t.advancePc = s.advancePc) :=
  ⟨fun hi => h.halted_of_not_halts (footprint_halts hi s), fun hi => h.advancePc_of_not_jumps (decide_eq_false hi)⟩

/-! ### The invariant inside a step -/

/-- The part of the machine invariant that speaks of storage and configuration; it holds in the middle of a step too. -/
structure State.StorageInv (s : State) : Prop where
  config : s.config.wellFormed = true
  slot0 : s.regs[0] = 0#16
  slot1 : s.regs[1] = 1#16
  memories : s.MemoriesWf
  units : s.unitsCoherent = true

theorem State.Inv.storage {s : State} (h : s.Inv) : s.StorageInv := by
  obtain ⟨hc, h0, h1, hm, _, _, hu⟩ := h
  exact ⟨hc, h0, h1, hm, hu⟩

theorem State.StorageInv.inv {s : State} (h : s.StorageInv) (he : s.halted = false → s.error = none)
    (ha : s.advancePc = true) : s.Inv :=
  ⟨h.config, h.slot0, h.slot1, h.memories, he, ha, h.units⟩

theorem State.StorageInv.setReg {s : State} (h : s.StorageInv) {i : RegIdx} (hi : 2 ≤ i.toNat) (v : Word) :
    (s.setReg i v).StorageInv where
  config := h.config
  slot0 := (Vector.getElem_set_ne i.isLt _ (by omega)).trans h.slot0
  slot1 := (Vector.getElem_set_ne i.isLt _ (by omega)).trans h.slot1
  memories := h.memories
  units := h.units

theorem State.MemoriesWf.storeWord {s : State} (h : s.MemoriesWf) {seg : Segment} (hseg : seg ≠ .code) {a : Nat}
    (ha : a < s.size seg) (v : Word) : (s.setMem seg ((s.mem seg).writeWord a v)).MemoriesWf := by
  obtain ⟨hcode, ⟨hdata, hdataB⟩, ⟨hstack, hstackB⟩, hcall, hcallB⟩ := h
  cases seg with
  | code => exact absurd rfl hseg
  | data =>
    exact ⟨hcode, ⟨Memory.wf_writeWord hdata a v, Memory.below_writeWord hdataB ha v⟩, ⟨hstack, hstackB⟩, hcall, hcallB⟩
  | stack =>
    exact ⟨hcode, ⟨hdata, hdataB⟩, ⟨Memory.wf_writeWord hstack a v, Memory.below_writeWord hstackB ha v⟩, hcall, hcallB⟩
  | call =>
    exact ⟨hcode, ⟨hdata, hdataB⟩, ⟨hstack, hstackB⟩, Memory.wf_writeWord hcall a v, Memory.below_writeWord hcallB ha v⟩

theorem State.StorageInv.storeWord {s : State} (h : s.StorageInv) {seg : Segment} (hseg : seg ≠ .code) {a : Nat}
    (ha : a < s.size seg) (v : Word) : (s.setMem seg ((s.mem seg).writeWord a v)).StorageInv where
  config := by simpa using h.config
  slot0 := by simpa using h.slot0
  slot1 := by simpa using h.slot1
  memories := h.memories.storeWord hseg ha v
  units := by cases seg <;> exact h.units

/-- The flags, the latch, the output and the device record are no part of storage. -/
theorem State.StorageInv.withControl {s : State} (h : s.StorageInv) (advance halted : Bool) (error : Option Error)
    (out : List (BitVec 32)) (io : List IoAccess) (started : Bool) :
    State.StorageInv
      { s with advancePc := advance, halted := halted, error := error, out := out, io := io, started := started } :=
  ⟨h.config, h.slot0, h.slot1, h.memories, h.units⟩

theorem State.StorageInv.takeError {s : State} (h : s.StorageInv) (e : Error) : (s.takeError e).StorageInv :=
  h.withControl ..

theorem Reaches.storageInv {f : Footprint} {s t : State} (h : Reaches f s t) (hs : s.StorageInv) : t.StorageInv := by
  induction h with
  | start => exact hs
  | setReg _ _ hw v ih => exact ih.setReg hw v
  | store _ _ hseg ha v ih => exact ih.storeWord hseg ha v
  | access _ _ _ ih | suppressAdvance _ _ ih | halt _ _ ih | emit _ _ _ ih => exact ih.withControl ..

/-! ### A step -/

/-- What a system call through the table may touch. -/
def systemCallFootprint : Footprint :=
  { Footprint.empty with halts := true, prints := true }

theorem applyResult_reaches (halt emit : Bool) (c : BitVec 32) (s : State) :
    Reaches systemCallFootprint s (s.applyResult halt emit c) := by
  have hhalt : Reaches systemCallFootprint s { s with halted := s.halted || halt } := by
    cases halt with
    | true => simpa using Reaches.start.halt rfl
    | false => simpa using Reaches.start
  cases emit with
  | true => exact hhalt.emit rfl c
  | false => exact hhalt

theorem dispatchUndefined_reaches (u : Undefined) (s : State) :
    (dispatchUndefined u s).Ends (Reaches systemCallFootprint s) := by
  cases u with
  | systemCommand selector s0 s1 =>
    change (systemCall selector s0 s1 s).Ends _
    rcases systemCall_cases selector s0 s1 s with ⟨halt, emit, c, hcall⟩ | ⟨payload, hcall⟩ | ⟨_, hcall⟩ <;> rw [hcall]
    · exact applyResult_reaches halt emit c s
    · exact Reaches.start
    · exact Reaches.start
  | _ => exact Reaches.start

/-- An error skips the advance. -/
@[simp] theorem State.finishStep_takeError (s : State) (e : Error) : (s.takeError e).finishStep = s.takeError e := rfl

theorem State.finishStep_of_no_error {s : State} (h : s.error = none) : s.finishStep = s.advance := by
  simp [State.finishStep, h]

theorem fetch_cases (s : State) :
    (∃ w, fetch s = .done w s) ∨ fetch s = .raised (.addressOutOfRange .code s.ip) s := by
  unfold fetch codeRead
  split
  · exact .inr rfl
  · exact .inl ⟨_, rfl⟩

theorem State.running_iff (s : State) : s.running = true ↔ s.halted = false ∧ s.error = none := by
  simp [State.running]

/-- A dispatch that answers a next state ran an instruction or what stands for an undefined encoding, and finished the step. -/
theorem dispatchDecoded_next {dec : Decoded} {s t : State} (h : dispatchDecoded dec s = .next t) :
    ∃ u, t = u.finishStep ∧
      ((∃ i, dec = .instr i ∧ exec i s = .next u) ∨
        ∃ c, dec = .undefined c ∧ (dispatchUndefined c s).outcome = .next u) := by
  unfold dispatchDecoded at h
  split at h
  · next u hu =>
    cases h
    refine ⟨u, rfl, ?_⟩
    cases dec with
    | instr i => exact .inl ⟨i, rfl, hu⟩
    | undefined c => exact .inr ⟨c, rfl, hu⟩
  · cases h
  · cases h

/-- Finishing the step of an instruction that ended as `Res.ends_of_outcome` says: the advance, or nothing after an error. -/
theorem finishStep_reaches {f : Footprint} {s u : State} (herr : s.error = none)
    (hu : Reaches f s u ∨ ∃ e w, Reaches f s w ∧ u = w.takeError e) :
    ∃ w, Reaches f s w ∧ (u.finishStep = w.advance ∨ ∃ e, u.finishStep = w.takeError e) := by
  rcases hu with hu | ⟨e, w, hw, rfl⟩
  · obtain ⟨_, _, _, herr', _⟩ := hu.fixed
    exact ⟨u, hu, .inl (State.finishStep_of_no_error (herr'.trans herr))⟩
  · exact ⟨w, hw, .inr ⟨e, rfl⟩⟩

theorem dispatchDecoded_reaches {dec : Decoded} {s t : State} (herr : s.error = none)
    (h : dispatchDecoded dec s = .next t) : ∃ f u, Reaches f s u ∧ (t = u.advance ∨ ∃ e, t = u.takeError e) := by
  obtain ⟨u, rfl, ⟨i, _, hexec⟩ | ⟨c, _, hout⟩⟩ := dispatchDecoded_next h
  · exact ⟨_, finishStep_reaches herr (exec_reaches hexec)⟩
  · exact ⟨_, finishStep_reaches herr (Res.ends_of_outcome (dispatchUndefined_reaches c s) hout)⟩

/-- What a step can do: nothing in a core that is not running; else it begins, reaches a state by elementary updates, and
advances or takes an error there. -/
theorem step_cases {s t : State} (h : step s = .next t) :
    (s.running = false ∧ t = s) ∨
    (s.running = true ∧ ∃ f u, Reaches f s.beginStep u ∧ (t = u.advance ∨ ∃ e, t = u.takeError e)) := by
  unfold step at h
  cases hrun : s.running with
  | false =>
    rw [hrun] at h
    cases h
    exact .inl ⟨rfl, rfl⟩
  | true =>
    rw [hrun] at h
    have herr : s.beginStep.error = none := ((State.running_iff s).mp hrun).2
    simp only [if_true, runStep] at h
    refine .inr ⟨rfl, ?_⟩
    rcases fetch_cases s.beginStep with ⟨w, hf⟩ | hf <;> rw [hf] at h
    · exact dispatchDecoded_reaches herr h
    · cases h
      exact ⟨Footprint.empty, _, .start, .inr ⟨_, rfl⟩⟩

theorem State.advance_advancePc (s : State) : s.advance.advancePc = true := by
  unfold State.advance
  split
  · assumption
  · rfl

theorem State.advance_error (s : State) : s.advance.error = s.error := by
  unfold State.advance
  split <;> rfl

theorem State.StorageInv.advance {s : State} (h : s.StorageInv) : s.advance.StorageInv := by
  unfold State.advance
  split
  · exact h.setReg (by decide) _
  · exact h.withControl ..

end Sys2Proof.Machine

section
open Sys2Proof Sys2Proof.Machine Sys2Proof.Statements

/-- Settles O13: the storage part of the invariant survives every elementary update; a step that advances latches no error
and sets `advance_pc`, and one that takes an error halts. -/
theorem stepKeepsInvariant : Obligations.StepKeepsInvariant := by
  intro s t hinv hstep
  rcases step_cases hstep with ⟨_, rfl⟩ | ⟨hrun, f, u, hu, ht⟩
  · exact hinv
  · have hbegin : s.beginStep.StorageInv := hinv.storage.withControl ..
    have hstorage : u.StorageInv := hu.storageInv hbegin
    obtain ⟨_, _, _, herr, _⟩ := hu.fixed
    rcases ht with rfl | ⟨e, rfl⟩
    · refine hstorage.advance.inv (fun _ => ?_) u.advance_advancePc
      calc u.advance.error = u.error := u.advance_error
        _ = s.error := herr
        _ = none := ((State.running_iff s).mp hrun).2
    · exact (hstorage.takeError e).inv (fun hh => nomatch hh) rfl

/-- Settles O22: an instruction that answers a next state reached it by updates within its footprint, or took an error at
such a state, and taking an error changes the flags only. -/
theorem instructionFrame : Obligations.InstructionFrame := by
  intro i s t hexec
  obtain ⟨hframe, hflags⟩ : FrameHolds i s t ∧ (s.error = none → t.error = none →
      (i ≠ .syscallTerminate → t.halted = s.halted) ∧ (8#8 ∉ implicitDestinations i → t.advancePc = s.advancePc)) := by
    rcases exec_reaches hexec with ht | ⟨e, u, hu, rfl⟩
    · exact ⟨ht.frameHolds, fun _ _ => ht.flags⟩
    · exact ⟨hu.frameHolds.takeError e, fun _ herr => nomatch herr⟩
  exact ⟨hframe.reg, hframe.byteAt, hframe.code, hframe.config, hframe.units, hframe.started, hframe.io, hframe.out, hflags⟩

end
end

section
/-! PROOFS. The register rules: what a write leaves, that a protected destination is refused before anything happens, and that
an instruction neither reads nor writes a register outside its operands. -/

namespace Sys2Proof.Machine

open Sys2Proof.Statements

/-! ### Write protection comes first (60_exceptions.md R376) -/

/-- The operation ends in `WriteProtected` for one of registers 0 and 1, with nothing changed. -/
def Res.Refuses {α : Type} (s : State) (r : Res α) : Prop :=
  ∃ i : RegIdx, i.toNat < 2 ∧ r = .raised (.writeProtected i) s

theorem Res.refuses_andThen {α β : Type} {s : State} {r : Res α} {g : α → State → Res β} (h : r.Refuses s) :
    (r.andThen g).Refuses s := by
  obtain ⟨i, hi, rfl⟩ := h
  exact ⟨i, hi, rfl⟩

theorem checkWritable_refuses {d : RegIdx} (hd : d.toNat < 2) (s : State) : (checkWritable d s).Refuses s :=
  ⟨d, hd, checkWritable_of_lt hd s⟩

/-- The two checks of a register swap: one protected register is enough. -/
theorem swapRegisters_refuses {d s0 : RegIdx} (h : d.toNat < 2 ∨ s0.toNat < 2) (s : State) :
    (swapRegisters d s0 s).Refuses s := by
  unfold swapRegisters
  rcases checkWritable_cases d s with ⟨hd, _⟩ | ⟨hd, hc⟩
  · exact Res.refuses_andThen (checkWritable_refuses hd s)
  · rw [hc, Res.andThen_done]
    exact Res.refuses_andThen (checkWritable_refuses (h.resolve_left (by omega)) s)

theorem arithmetic_refuses {f : ArithFn} {d : RegIdx} (hd : d.toNat < 2) {a b : Word} (hf : f a b ≠ none) (s : State) :
    (arithmetic f d a b s).Refuses s := by
  rcases arithmetic_cases f d a b s with ⟨hnone, _⟩ | ⟨_, _, _, h⟩ | ⟨_, _, hd2, _⟩
  · exact absurd hnone hf
  · exact ⟨d, hd, h⟩
  · omega

/-- An action with a protected destination is refused, unless it is a division by zero. -/
theorem Action.run_refuses {a : Action} {r : RegIdx} (hr : r ∈ a.destinations) (hr2 : r.toNat < 2) {s : State}
    (hdefined : ∀ f d x y, a = .arithmetic f d x y → f (x.value s) (y.value s) ≠ none) : (a.run s).Refuses s := by
  cases a with
  | arithmetic f d x y =>
    cases List.mem_singleton.mp hr
    exact arithmetic_refuses hr2 (hdefined f r x y rfl) s
  | copy dst src =>
    cases dst with
    | reg b =>
      cases List.mem_singleton.mp hr
      exact Res.refuses_andThen (checkWritable_refuses hr2 s)
    | memByReg b => cases hr
    | memByImm imm => cases hr
  | swapRegisters d s0 =>
    refine swapRegisters_refuses ?_ s
    rcases List.mem_pair.mp hr with rfl | rfl
    · exact .inl hr2
    · exact .inr hr2
  | swapRegisterCell d cell | pop d | peek d =>
    cases List.mem_singleton.mp hr
    exact Res.refuses_andThen (checkWritable_refuses hr2 s)
  | _ => cases hr

/-! ### Operations commute with a change they do not see -/

/-- A sequence commutes with `g` when both its parts do. -/
theorem Res.andThen_mapState {α β : Type} {g : State → State} {r r' : Res α} {k k' : α → State → Res β}
    (hr : r' = r.mapState g) (hk : ∀ a t, r = .done a t → k' a (g t) = (k a t).mapState g) :
    r'.andThen k' = (r.andThen k).mapState g := by
  subst hr
  cases r with
  | done a t => exact hk a t rfl
  | raised e t => rfl
  | hung why => rfl

section GeneralRegister

variable {r : RegIdx} {v : Word}

/-- The outcome of an operation that commutes with a register write. -/
theorem Res.outcome_mapState_setReg (res : Res Unit) (r : RegIdx) (v : Word) :
    (res.mapState (State.setReg r v)).outcome = mapNext (State.setReg r v) res.outcome := by
  cases res <;> rfl

theorem Source.value_setReg {x : Source} (h : r ∉ x.registers) (s : State) : x.value (s.setReg r v) = x.value s := by
  cases x with
  | reg b => exact State.reg_setReg_of_ne s (List.ne_of_not_mem_cons h).symm v
  | imm w => rfl

theorem checkWritable_setReg (d : RegIdx) (s : State) :
    checkWritable d (s.setReg r v) = (checkWritable d s).mapState (State.setReg r v) := by
  unfold checkWritable
  split <;> rfl

theorem writeReg_setReg {d : RegIdx} (h : d ≠ r) (w : Word) (s : State) :
    writeReg d w (s.setReg r v) = (writeReg d w s).mapState (State.setReg r v) := by
  unfold writeReg
  split
  · rfl
  · exact congrArg (Res.done ()) (State.setReg_comm s h.symm v w)

theorem memProbe_setReg (a : Word) (s : State) :
    memProbe a (s.setReg r v) = (memProbe a s).mapState (State.setReg r v) := by
  unfold memProbe
  rw [route_congr (State.setReg_config s r v)]
  split <;> rfl

theorem callDevice_setReg (dev : Device) (p : IoAccess) (s : State) :
    callDevice dev p (s.setReg r v) = (callDevice dev p s).mapState (State.setReg r v) := by
  unfold callDevice
  rw [State.setReg_io]
  split <;> rfl

theorem memRead_setReg (a : Word) (s : State) :
    memRead a (s.setReg r v) = (memRead a s).mapState (State.setReg r v) := by
  unfold memRead
  rw [route_congr (State.setReg_config s r v)]
  split
  · rfl
  · exact callDevice_setReg _ _ s
  · rfl

theorem memWrite_setReg (a w : Word) (s : State) :
    memWrite a w (s.setReg r v) = (memWrite a w s).mapState (State.setReg r v) := by
  unfold memWrite
  rw [route_congr (State.setReg_config s r v)]
  split
  · rfl
  · exact Res.andThen_mapState (callDevice_setReg _ _ s) fun _ _ _ => rfl
  · rfl

theorem push_setReg {k : StackId} (h : stackPointer k ≠ r) (w : Word) (s : State) :
    push k w (s.setReg r v) = (push k w s).mapState (State.setReg r v) := by
  have haddr : pushAddress k (s.setReg r v) = pushAddress k s := by
    unfold pushAddress
    rw [State.reg_setReg_of_ne s h v]
  unfold push
  rw [haddr, State.setReg_size, State.setReg_mem, State.setReg_comm s h.symm]
  split
  · rfl
  · cases k <;> rfl

theorem peek_setReg {k : StackId} (h : stackPointer k ≠ r) (s : State) :
    peek k (s.setReg r v) = (peek k s).mapState (State.setReg r v) := by
  unfold peek
  rw [State.reg_setReg_of_ne s h v, State.setReg_size, State.setReg_mem]
  split <;> rfl

theorem pop_setReg {k : StackId} (h : stackPointer k ≠ r) (s : State) :
    pop k (s.setReg r v) = (pop k s).mapState (State.setReg r v) := by
  refine Res.andThen_mapState (peek_setReg h s) fun w t _ => ?_
  rw [State.reg_setReg_of_ne s h v, State.setReg_comm t h.symm]
  rfl

theorem jumpTo_setReg (h : ipIdx ≠ r) (addr : Word) (s : State) :
    (s.setReg r v).jumpTo addr = (s.jumpTo addr).setReg r v := by
  unfold State.jumpTo
  rw [State.setReg_comm s h.symm]
  rfl

theorem nextAddress_setReg (h : ipIdx ≠ r) (s : State) : (s.setReg r v).nextAddress = s.nextAddress := by
  unfold State.nextAddress State.ip
  rw [State.reg_setReg_of_ne s h v]

theorem branch_setReg (hip : ipIdx ≠ r) (hcsp : cspIdx ≠ r) (addr : Word) (isCall : Bool) (s : State) :
    branch addr isCall (s.setReg r v) = (branch addr isCall s).mapState (State.setReg r v) := by
  cases isCall with
  | false => exact congrArg (Res.done ()) (jumpTo_setReg hip addr s)
  | true =>
    unfold branch
    rw [nextAddress_setReg hip]
    exact Res.andThen_mapState (push_setReg (k := .callStack) hcsp _ s) fun _ t _ =>
      congrArg (Res.done ()) (jumpTo_setReg hip addr t)

theorem conditional_setReg (hip : ipIdx ≠ r) (hcsp : cspIdx ≠ r) (cond : Bool) (target : Word) (isCall : Bool) (s : State) :
    conditional cond target isCall (s.setReg r v) = (conditional cond target isCall s).mapState (State.setReg r v) := by
  unfold conditional
  rw [nextAddress_setReg hip, State.setReg_config, branch_setReg hip hcsp, branch_setReg hip hcsp]
  split <;> rfl

theorem arithmetic_setReg {d : RegIdx} (h : d ≠ r) (f : ArithFn) (a b : Word) (s : State) :
    arithmetic f d a b (s.setReg r v) = (arithmetic f d a b s).mapState (State.setReg r v) := by
  unfold arithmetic
  split
  · rfl
  · exact writeReg_setReg h _ s

theorem admitPlace_setReg {p : Place} (h : r ∉ p.registers) (s : State) :
    admitPlace p (s.setReg r v) = (admitPlace p s).mapState (State.setReg r v) := by
  cases p with
  | reg b => exact checkWritable_setReg b s
  | memByReg b =>
    simp only [admitPlace, State.reg_setReg_of_ne s (List.ne_of_not_mem_cons h).symm]
    exact memProbe_setReg _ s
  | memByImm imm => exact memProbe_setReg imm s

theorem readPlace_setReg {p : Place} (h : r ∉ p.registers) (s : State) :
    readPlace p (s.setReg r v) = (readPlace p s).mapState (State.setReg r v) := by
  cases p with
  | reg b =>
    simp only [readPlace, State.reg_setReg_of_ne s (List.ne_of_not_mem_cons h).symm, Res.mapState_done]
  | memByReg b =>
    simp only [readPlace, State.reg_setReg_of_ne s (List.ne_of_not_mem_cons h).symm]
    exact memRead_setReg _ s
  | memByImm imm => exact memRead_setReg imm s

theorem writePlace_setReg {p : Place} (h : r ∉ p.registers) (w : Word) (s : State) :
    writePlace p w (s.setReg r v) = (writePlace p w s).mapState (State.setReg r v) := by
  cases p with
  | reg b => exact writeReg_setReg (List.ne_of_not_mem_cons h).symm w s
  | memByReg b =>
    simp only [writePlace, State.reg_setReg_of_ne s (List.ne_of_not_mem_cons h).symm]
    exact memWrite_setReg _ w s
  | memByImm imm => exact memWrite_setReg imm w s

theorem readOperand_setReg {o : Operand} (h : r ∉ o.registers) (s : State) :
    readOperand o (s.setReg r v) = (readOperand o s).mapState (State.setReg r v) := by
  cases o with
  | place p => exact readPlace_setReg h s
  | literal imm => rfl

theorem copyInto_setReg {dst : Place} {src : Operand} (hdst : r ∉ dst.registers) (hsrc : r ∉ src.registers) (s : State) :
    copyInto dst src (s.setReg r v) = (copyInto dst src s).mapState (State.setReg r v) :=
  Res.andThen_mapState (admitPlace_setReg hdst s) fun _ t _ =>
    Res.andThen_mapState (readOperand_setReg hsrc t) fun w u _ => writePlace_setReg hdst w u

theorem swapRegisters_setReg {d s0 : RegIdx} (hd : d ≠ r) (h0 : s0 ≠ r) (s : State) :
    swapRegisters d s0 (s.setReg r v) = (swapRegisters d s0 s).mapState (State.setReg r v) := by
  unfold swapRegisters
  rw [State.reg_setReg_of_ne s hd, State.reg_setReg_of_ne s h0]
  exact Res.andThen_mapState (checkWritable_setReg d s) fun _ s1 _ =>
    Res.andThen_mapState (checkWritable_setReg s0 s1) fun _ s2 _ =>
      Res.andThen_mapState (writeReg_setReg hd _ s2) fun _ s3 _ => writeReg_setReg h0 _ s3

theorem swapRegisterCell_setReg {d : RegIdx} (hd : d ≠ r) (a : Word) (s : State) :
    swapRegisterCell d a (s.setReg r v) = (swapRegisterCell d a s).mapState (State.setReg r v) := by
  unfold swapRegisterCell
  rw [State.reg_setReg_of_ne s hd]
  exact Res.andThen_mapState (checkWritable_setReg d s) fun _ s1 _ =>
    Res.andThen_mapState (memRead_setReg a s1) fun m s2 _ =>
      Res.andThen_mapState (memWrite_setReg a _ s2) fun _ s3 _ => writeReg_setReg hd m s3

theorem swapCells_setReg (a1 a2 : Word) (s : State) :
    swapCells a1 a2 (s.setReg r v) = (swapCells a1 a2 s).mapState (State.setReg r v) :=
  Res.andThen_mapState (memProbe_setReg a1 s) fun _ s1 _ =>
    Res.andThen_mapState (memProbe_setReg a2 s1) fun _ s2 _ =>
      Res.andThen_mapState (memRead_setReg a1 s2) fun m1 s3 _ =>
        Res.andThen_mapState (memRead_setReg a2 s3) fun m2 s4 _ =>
          Res.andThen_mapState (memWrite_setReg a1 m2 s4) fun _ s5 _ => memWrite_setReg a2 m1 s5

/-- An action neither reads nor writes a register that is not special and that it does not name. -/
theorem Action.run_setReg {a : Action} (hr : r ∉ a.registers) (hspecial : ∀ q ∈ [ipIdx, spIdx, predIdx, cspIdx], q ≠ r)
    (s : State) : a.run (s.setReg r v) = (a.run s).mapState (State.setReg r v) := by
  have hip : ipIdx ≠ r := hspecial _ (by simp)
  have hsp : stackPointer .dataStack ≠ r := hspecial _ (by simp [stackPointer])
  have hcsp : stackPointer .callStack ≠ r := hspecial _ (by simp [stackPointer])
  have hpred : predIdx ≠ r := hspecial _ (by simp)
  have hreadPred : (s.setReg r v).pred = s.pred := State.reg_setReg_of_ne s hpred v
  cases a <;>
    simp only [Action.registers, List.mem_cons, List.mem_append, List.not_mem_nil, or_false, not_or,
      ne_comm (a := r)] at hr <;>
    simp only [Action.run]
  case arithmetic f d x y =>
    obtain ⟨hd, hx, hy⟩ := hr
    rw [Source.value_setReg hx, Source.value_setReg hy]
    exact arithmetic_setReg hd f _ _ s
  case copy dst src =>
    obtain ⟨hdst, hsrc⟩ := hr
    exact copyInto_setReg hdst hsrc s
  case swapRegisters d s0 =>
    obtain ⟨hd, h0⟩ := hr
    exact swapRegisters_setReg hd h0 s
  case swapRegisterCell d cell =>
    obtain ⟨hd, hcell⟩ := hr
    rw [Source.value_setReg hcell]
    exact swapRegisterCell_setReg hd _ s
  case swapCells d cell =>
    obtain ⟨hd, hcell⟩ := hr
    rw [Source.value_setReg hcell, State.reg_setReg_of_ne s hd]
    exact swapCells_setReg _ _ s
  case push x =>
    rw [Source.value_setReg hr]
    exact push_setReg hsp _ s
  case pop d =>
    exact Res.andThen_mapState (checkWritable_setReg d s) fun _ s1 _ =>
      Res.andThen_mapState (pop_setReg hsp s1) fun w s2 _ => writeReg_setReg hr w s2
  case peek d =>
    exact Res.andThen_mapState (checkWritable_setReg d s) fun _ s1 _ =>
      Res.andThen_mapState (peek_setReg hsp s1) fun w s2 _ => writeReg_setReg hr w s2
  case compare p c s0 s1 =>
    obtain ⟨h0, h1⟩ := hr
    unfold compareWith
    rw [hreadPred, State.reg_setReg_of_ne s h0, State.reg_setReg_of_ne s h1, State.setReg_comm s hpred.symm,
      Res.mapState_done]
  case branch target isCall =>
    rw [Source.value_setReg hr]
    exact branch_setReg hip hcsp _ isCall s
  case conditional sense target isCall =>
    rw [Source.value_setReg hr, hreadPred]
    exact conditional_setReg hip hcsp _ _ isCall s
  case select sense s0 s1 isCall =>
    obtain ⟨h0, h1⟩ := hr
    rw [hreadPred, State.reg_setReg_of_ne s h0, State.reg_setReg_of_ne s h1]
    exact branch_setReg hip hcsp _ isCall s
  case ret =>
    exact Res.andThen_mapState (pop_setReg hcsp s) fun w t _ => congrArg (Res.done ()) (jumpTo_setReg hip w t)
  case terminate => rfl
  case panic payload => rfl
  case putc s0 s1 =>
    obtain ⟨h0, h1⟩ := hr
    rw [State.reg_setReg_of_ne s h0, State.reg_setReg_of_ne s h1]
    rfl

end GeneralRegister

/-! ### Reset -/

/-- Reset leaves the general registers as launched. -/
theorem resetRegs_general (g : Vector Word 256) {r : RegIdx} (h2 : 2 ≤ r.toNat) (hr : r.toNat < 8 ∨ 12 ≤ r.toNat) :
    (resetRegs g)[r.toNat]'r.isLt = g[r.toNat]'r.isLt := by
  unfold resetRegs
  repeat rw [Vector.getElem_set_ne _ _ (by omega)]

/-- A register that is not a constant reads its slot. -/
theorem State.reg_of_le (s : State) {r : RegIdx} (h : 2 ≤ r.toNat) : s.reg r = s.regs[r.toNat]'r.isLt := by
  have h0 : r ≠ 0#8 := fun h0 => by simp [h0] at h
  have h1 : r ≠ 1#8 := fun h1 => by simp [h1] at h
  simp [State.reg, h0, h1]

@[simp] theorem resetRegs_slot0 (g : Vector Word 256) : (resetRegs g)[0] = 0#16 := by
  simp [resetRegs]

@[simp] theorem resetRegs_slot1 (g : Vector Word 256) : (resetRegs g)[1] = 1#16 := by
  simp [resetRegs]

theorem Memory.wf_nil : Memory.Wf [] := ⟨List.Pairwise.nil, fun _ h => nomatch h⟩

theorem Memory.below_nil (n : Nat) : Memory.Below [] n := fun _ h => nomatch h

/-- The launch values meet the invariant in every legal configuration, when the memories do. -/
theorem launch_inv {c : Config} {l : Launch} (hc : c.wellFormed = true)
    (hmem : (State.launch c l).MemoriesWf) : (State.launch c l).Inv :=
  ⟨hc, resetRegs_slot0 l.regs, resetRegs_slot1 l.regs, hmem, fun _ => rfl, rfl, rfl⟩

end Sys2Proof.Machine

section
open Sys2Proof Sys2Proof.Machine Sys2Proof.Statements

/-- Settles O7: the operation rules are the laws of `writeReg`; an instruction checks its destinations before anything else,
except that a division fails first. -/
theorem registerReadWriteRules : Obligations.RegisterReadWriteRules := by
  refine ⟨fun s i v => ⟨s.reg_zero, s.reg_one, fun hi => writeReg_of_lt hi v s, fun hi => ?_⟩, fun i s r hr hr2 hdiv => ?_⟩
  · exact ⟨s.setReg i v, writeReg_of_le hi v s, rfl, rfl, s.reg_setReg_self ((isWriteProtected_eq_false_iff i).mpr hi) v,
      fun _ hne => s.reg_setReg_of_ne hne v⟩
  · rw [← destinations_action] at hr
    obtain ⟨r', hr', hrun⟩ := Action.run_refuses hr hr2 fun _ _ _ _ ha => arithmetic_defined ha hdiv
    exact ⟨r', hr', by rw [exec_eq_run, hrun, Res.outcome_raised]⟩

/-- Settles O8: every action commutes with a write of a register it does not name. -/
theorem generalRegistersOnlyThroughOperands : Obligations.GeneralRegistersOnlyThroughOperands := by
  refine ⟨fun i r v s _ hr hops => ?_, by decide +kernel⟩
  have hspecial : ∀ q ∈ [ipIdx, spIdx, predIdx, cspIdx], q ≠ r := by
    rintro q hq rfl
    have hrange : ∀ q ∈ [ipIdx, spIdx, predIdx, cspIdx], 8 ≤ q.toNat ∧ q.toNat < 12 := by decide
    have := hrange q hq
    omega
  rw [← registers_action] at hops
  rw [exec_eq_run, exec_eq_run, Action.run_setReg hops hspecial, Res.outcome_mapState_setReg]

/-- Settles O11: everything but the general registers is read off `State.launch`. -/
theorem resetStateValues : Obligations.ResetStateValues := by
  refine ⟨rfl, rfl, rfl, rfl, rfl, rfl, rfl, rfl, fun u => ?_, fun r h2 hr => ?_, fun seg n => ?_, rfl⟩
  · cases u <;> rfl
  · calc State.reset.reg r = (resetRegs Launch.reference.regs)[r.toNat]'r.isLt := State.reset.reg_of_le h2
      _ = Launch.reference.regs[r.toNat]'r.isLt := resetRegs_general _ h2 hr
      _ = 0#16 := Vector.getElem_replicate _
  · cases seg <;> rfl

/-- Settles O12: the reference launch is a legal one, with empty memories. -/
theorem resetMeetsInvariant : Obligations.ResetMeetsInvariant := by
  have legal : ∀ (c : Config) (l : Launch), c.wellFormed = true →
      l.code.Wf → l.code.Below (4 * c.codeSize) → l.data.Wf → l.data.Below (2 * c.dataSize) →
      l.stack.Wf → l.stack.Below (2 * c.stackSize) → l.call.Wf → l.call.Below (2 * c.callSize) → (State.launch c l).Inv :=
    fun _ _ hc hcode hcodeB hdata hdataB hstack hstackB hcall hcallB =>
      launch_inv hc ⟨⟨hcode, hcodeB⟩, ⟨hdata, hdataB⟩, ⟨hstack, hstackB⟩, hcall, hcallB⟩
  exact ⟨legal Config.reference Launch.reference (by decide) Memory.wf_nil (Memory.below_nil _) Memory.wf_nil
    (Memory.below_nil _) Memory.wf_nil (Memory.below_nil _) Memory.wf_nil (Memory.below_nil _), legal⟩

end
end

section
/-! PROOFS. The rules of the memory operations: the layout of a cell, the segment router, and the two stacks
(20_memory.md R62 to R77). -/

namespace Sys2Proof.Machine

open Sys2Proof.Statements

/-! ### The bytes of a cell (log 9) -/

/-- A concatenation as a number: the left part counts in units of `2 ^ k`. -/
theorem toNat_append_eq_add {n k : Nat} (x : BitVec n) (y : BitVec k) : (x ++ y).toNat = x.toNat * 2 ^ k + y.toNat := by
  rw [BitVec.toNat_append, ← Nat.shiftLeft_add_eq_or_of_lt y.isLt, Nat.shiftLeft_eq]

/-- A 32-bit cell from its four bytes, low byte first. -/
theorem Memory.toNat_readCell (m : Memory) (a : Nat) :
    (m.readCell a).toNat = (m.readByte (4 * a)).toNat + 256 * (m.readByte (4 * a + 1)).toNat +
      65536 * (m.readByte (4 * a + 2)).toNat + 16777216 * (m.readByte (4 * a + 3)).toNat := by
  unfold Memory.readCell
  simp only [toNat_append_eq_add]
  omega

theorem toNat_lowByte (v : Word) : (lowByte v).toNat = v.toNat % 256 :=
  BitVec.extractLsb'_toNat 0 8 v

theorem toNat_highByte (v : Word) : (highByte v).toNat = v.toNat / 256 := by
  have hv : v.toNat < 65536 := v.isLt
  have hshift : (highByte v).toNat = (v.toNat >>> 8) % 256 := BitVec.extractLsb'_toNat 8 8 v
  rw [hshift, Nat.shiftRight_eq_div_pow]
  omega

/-- The low byte of a written cell. -/
theorem Memory.readByte_writeWord_low (m : Memory) (a : Nat) (v : Word) :
    (m.writeWord a v).readByte (2 * a) = lowByte v := by
  unfold Memory.writeWord
  rw [Memory.readByte_writeByte_of_ne (by omega), Memory.readByte_writeByte_self]

/-- The high byte of a written cell. -/
theorem Memory.readByte_writeWord_high (m : Memory) (a : Nat) (v : Word) :
    (m.writeWord a v).readByte (2 * a + 1) = highByte v :=
  Memory.readByte_writeByte_self _ _ _

@[simp] theorem State.byteAt_setMem_self (s : State) (seg : Segment) (m : Memory) (n : Nat) :
    (s.setMem seg m).byteAt seg n = m.readByte n := by
  rw [State.byteAt, State.mem_setMem_self]

theorem State.byteAt_setMem_of_ne (s : State) {seg seg' : Segment} (h : seg' ≠ seg) (m : Memory) (n : Nat) :
    (s.setMem seg m).byteAt seg' n = s.byteAt seg' n := by
  rw [State.byteAt, State.mem_setMem_of_ne s h, State.byteAt]

@[simp] theorem State.setMem_size (s : State) (seg : Segment) (m : Memory) (seg' : Segment) :
    (s.setMem seg m).size seg' = s.size seg' := by
  cases seg' <;> simp

/-! ### The router: which of its three ways an access takes -/

theorem route_of_unmapped {s : State} {a : Word} (ha : s.config.dataSize ≤ a.toNat)
    (hl : registryLookup s.config.devices a = none) : route s a = .unmapped := by
  simp [route, hl, Nat.not_lt.mpr ha]

theorem route_of_device {s : State} {a : Word} {dev : Device} (ha : s.config.dataSize ≤ a.toNat)
    (hl : registryLookup s.config.devices a = some dev) : route s a = .device dev := by
  simp [route, hl, Nat.not_lt.mpr ha]

theorem memRead_of_ram {a : Word} {s : State} (h : a.toNat < s.config.dataSize) :
    memRead a s = .done (s.data.readWord a.toNat) s := by
  rw [memRead, (route_eq_ram_iff s a).mpr h]

theorem memRead_of_unmapped {a : Word} {s : State} (h : route s a = .unmapped) :
    memRead a s = .raised (.unmappedIoAddress a) s := by
  rw [memRead, h]

theorem memRead_of_device {a : Word} {s : State} {dev : Device} (h : route s a = .device dev) :
    memRead a s = callDevice dev (.load a) s := by
  rw [memRead, h]

theorem memWrite_of_ram {a : Word} {s : State} (h : a.toNat < s.config.dataSize) (v : Word) :
    memWrite a v s = .done () (s.setMem .data (s.data.writeWord a.toNat v)) := by
  rw [memWrite, (route_eq_ram_iff s a).mpr h]

theorem memWrite_of_unmapped {a : Word} {s : State} (h : route s a = .unmapped) (v : Word) :
    memWrite a v s = .raised (.unmappedIoAddress a) s := by
  rw [memWrite, h]

theorem memWrite_of_device {a : Word} {s : State} {dev : Device} (h : route s a = .device dev) (v : Word) :
    memWrite a v s = (callDevice dev (.store a v) s).andThen fun _ t => .done () t := by
  rw [memWrite, h]

theorem memProbe_of_mapped {a : Word} {s : State} (h : route s a ≠ .unmapped) : memProbe a s = .done () s := by
  rcases memProbe_cases a s with ⟨hr, _⟩ | ⟨_, hp⟩
  · exact absurd hr h
  · exact hp

theorem memProbe_of_unmapped {a : Word} {s : State} (h : route s a = .unmapped) :
    memProbe a s = .raised (.unmappedIoAddress a) s := by
  rw [memProbe, h]

theorem callDevice_of_ok {dev : Device} {p : IoAccess} {s : State} {v : Word} (h : deviceAnswer dev s.io p = .ok v) :
    callDevice dev p s = .done v (accessed p s) := by
  rw [callDevice, h, accessed]

theorem callDevice_of_error {dev : Device} {p : IoAccess} {s : State} {e : Nat} (h : deviceAnswer dev s.io p = .error e) :
    callDevice dev p s = .raised (.deviceError (accessAddress p) e) (accessed p s) := by
  rw [callDevice, h, accessed]

/-! ### The stacks, in range and out of range -/

theorem push_of_le {k : StackId} {s : State} (h : s.size (stackSegment k) ≤ (pushAddress k s).toNat) (v : Word) :
    push k v s = .raised (.addressOutOfRange (stackSegment k) (pushAddress k s)) s :=
  if_pos h

theorem push_of_lt {k : StackId} {s : State} (h : (pushAddress k s).toNat < s.size (stackSegment k)) (v : Word) :
    push k v s = .done () ((s.setReg (stackPointer k) (pushAddress k s)).setMem (stackSegment k)
      ((s.mem (stackSegment k)).writeWord (pushAddress k s).toNat v)) :=
  if_neg (Nat.not_le.mpr h)

theorem peek_of_le {k : StackId} {s : State} (h : s.size (stackSegment k) ≤ (s.reg (stackPointer k)).toNat) :
    peek k s = .raised (.addressOutOfRange (stackSegment k) (s.reg (stackPointer k))) s :=
  if_pos h

theorem peek_of_lt {k : StackId} {s : State} (h : (s.reg (stackPointer k)).toNat < s.size (stackSegment k)) :
    peek k s = .done ((s.mem (stackSegment k)).readWord (s.reg (stackPointer k)).toNat) s :=
  if_neg (Nat.not_le.mpr h)

theorem pop_of_le {k : StackId} {s : State} (h : s.size (stackSegment k) ≤ (s.reg (stackPointer k)).toNat) :
    pop k s = .raised (.addressOutOfRange (stackSegment k) (s.reg (stackPointer k))) s := by
  rw [pop, peek_of_le h, Res.andThen_raised]

theorem pop_of_lt {k : StackId} {s : State} (h : (s.reg (stackPointer k)).toNat < s.size (stackSegment k)) :
    pop k s = .done ((s.mem (stackSegment k)).readWord (s.reg (stackPointer k)).toNat)
      (s.setReg (stackPointer k) (s.reg (stackPointer k) - 1#16)) := by
  rw [pop, peek_of_lt h, Res.andThen_done]

theorem State.reg_setReg_stackPointer (s : State) (k : StackId) (v : Word) :
    (s.setReg (stackPointer k) v).reg (stackPointer k) = v :=
  s.reg_setReg_self ((isWriteProtected_eq_false_iff _).mpr (stackPointer_writable k)) v

/-- A pop of a cell just written at the pointer returns what was written and moves the pointer back by 1. -/
theorem pop_after_write {k : StackId} {s : State} {p : Word} (h : p.toNat < s.size (stackSegment k))
    (hp : s.reg (stackPointer k) = p) (m : Memory) (v : Word) :
    pop k (s.setMem (stackSegment k) (m.writeWord p.toNat v)) =
      .done v ((s.setMem (stackSegment k) (m.writeWord p.toNat v)).setReg (stackPointer k) (p - 1#16)) := by
  subst hp
  rw [pop_of_lt (by simpa using h)]
  simp

end Sys2Proof.Machine

open Sys2Proof Sys2Proof.Machine Sys2Proof.Statements

/-- Settles O48: in RAM the router's write is a write of the cell, whose two bytes are the only ones that change. -/
theorem memReadAfterMemWrite : Obligations.MemReadAfterMemWrite := by
  intro a b v s ha
  refine ⟨_, memWrite_of_ram ha v, ?_, fun hba hb => ?_, ?_, ?_, fun seg n hn => ?_⟩
  · rw [memRead_of_ram (by simpa using ha)]
    simp
  · have hne : b.toNat ≠ a.toNat := fun h => hba (BitVec.eq_of_toNat_eq h)
    rw [memRead_of_ram (by simpa using hb)]
    simp [Memory.readWord_writeWord_of_ne hne]
  · rw [State.byteAt_setMem_self, Memory.readByte_writeWord_low, toNat_lowByte]
  · rw [State.byteAt_setMem_self, Memory.readByte_writeWord_high, toNat_highByte]
  · by_cases hseg : seg = .data
    · subst hseg
      obtain ⟨hlow, hhigh⟩ := hn.resolve_left (fun h => h rfl)
      rw [State.byteAt_setMem_self, Memory.readByte_writeWord_of_ne hlow hhigh, State.byteAt, State.mem_data]
    · exact s.byteAt_setMem_of_ne hseg _ n

/-- Settles O49: a push leaves a pointer that names the cell just written, so the pop after it finds that cell. -/
theorem stackRules : Obligations.StackRules := by
  intro k v s
  refine ⟨fun h => push_of_le h v, fun h => ⟨_, push_of_lt h v, rfl, ?_, fun r hr => ?_, ?_, ?_⟩,
    fun h => ⟨pop_of_le h, peek_of_le h⟩, fun h => ⟨pop_of_lt h, peek_of_lt h⟩⟩
  · rw [State.setMem_reg, State.reg_setReg_stackPointer, pushAddress]
  · rw [State.setMem_reg, State.reg_setReg_of_ne s hr]
  · rw [State.mem_setMem_self, pushAddress, Memory.readWord_writeWord_self]
  · have hsize : (pushAddress k s).toNat < (s.setReg (stackPointer k) (pushAddress k s)).size (stackSegment k) := by
      rw [State.setReg_size]
      exact h
    rw [pop_after_write hsize (s.reg_setReg_stackPointer k _), pushAddress, BitVec.add_sub_cancel]

/-- Settles O15: the range check decides, and the cell is its four bytes. -/
theorem codeReadRule : Obligations.CodeReadRule :=
  fun a s => ⟨fun h => if_pos h, fun h => ⟨if_neg (Nat.not_le.mpr h), s.code.toNat_readCell a.toNat⟩⟩

/-- Settles O47: each of the three routes of an address fixes what the three operations do. -/
theorem routerRules : Obligations.RouterRules := by
  intro a v s
  refine ⟨fun h => ?_, fun ha hl => ?_, fun dev ha hl => ?_⟩
  · have hmapped : route s a ≠ .unmapped := by rw [(route_eq_ram_iff s a).mpr h]; nofun
    exact ⟨memRead_of_ram h, memWrite_of_ram h v, memProbe_of_mapped hmapped⟩
  · have hr : route s a = .unmapped := route_of_unmapped ha hl
    exact ⟨memRead_of_unmapped hr, memWrite_of_unmapped hr v, memProbe_of_unmapped hr⟩
  · have hr : route s a = .device dev := route_of_device ha hl
    refine ⟨memProbe_of_mapped (by rw [hr]; nofun), ?_⟩
    rw [memRead_of_device hr, memWrite_of_device hr]
    refine ⟨fun w h => callDevice_of_ok h, fun e h => callDevice_of_error h, fun w h => ?_, fun e h => ?_⟩
    · rw [callDevice_of_ok h, Res.andThen_done]
    · rw [callDevice_of_error h, Res.andThen_raised, accessAddress]

end

section
/-! PROOFS. What a step and an instruction do with the segments: a step leaves the code, and an instruction commutes with any
change of a segment that its opcode does not reach (20_memory.md R67). -/

namespace Sys2Proof.Machine

open Sys2Proof.Statements

/-! ### A step leaves the configuration, the code and the units -/

theorem State.advance_fixed (s : State) :
    s.advance.config = s.config ∧ s.advance.code = s.code ∧ s.advance.units = s.units := by
  unfold State.advance
  split <;> exact ⟨rfl, rfl, rfl⟩

/-! ### The segments an action reaches -/

/-- The place is a data cell. -/
def Place.inData : Place → Bool
  | .reg _ => false
  | .memByReg _ | .memByImm _ => true

def Operand.inData : Operand → Bool
  | .place p => p.inData
  | .literal _ => false

def Action.segments : Action → List Segment
  | .copy dst src => if dst.inData || src.inData then [.data] else []
  | .swapRegisterCell _ _ | .swapCells _ _ => [.data]
  | .push _ | .pop _ | .peek _ => [.stack]
  | .branch _ isCall | .conditional _ _ isCall | .select _ _ _ isCall => if isCall then [.call] else []
  | .ret => [.call]
  | .arithmetic _ _ _ _ | .swapRegisters _ _ | .compare _ _ _ _ | .terminate | .panic _ | .putc _ _ => []

theorem segments_action (i : Instr) : (action i).segments = reachedSegments i := by
  cases i <;> rfl

/-! ### Operations commute with a change of a segment they do not reach -/

section OtherSegment

variable {seg : Segment} {m : Memory}

theorem State.setMem_setReg (s : State) (seg : Segment) (m : Memory) (r : RegIdx) (v : Word) :
    (s.setMem seg m).setReg r v = (s.setReg r v).setMem seg m := by
  cases seg <;> rfl

theorem State.setMem_comm (s : State) {seg seg' : Segment} (h : seg ≠ seg') (m m' : Memory) :
    (s.setMem seg m).setMem seg' m' = (s.setMem seg' m').setMem seg m := by
  cases seg <;> cases seg' <;> simp_all [State.setMem]

theorem State.setMem_jumpTo (s : State) (seg : Segment) (m : Memory) (addr : Word) :
    (s.setMem seg m).jumpTo addr = (s.jumpTo addr).setMem seg m := by
  cases seg <;> rfl

@[simp] theorem State.setMem_nextAddress (s : State) (seg : Segment) (m : Memory) :
    (s.setMem seg m).nextAddress = s.nextAddress := by
  simp [State.nextAddress, State.ip]

@[simp] theorem State.setMem_pred (s : State) (seg : Segment) (m : Memory) : (s.setMem seg m).pred = s.pred :=
  s.setMem_reg seg m predIdx

@[simp] theorem Source.value_setMem (x : Source) (s : State) : x.value (s.setMem seg m) = x.value s := by
  cases x with
  | reg b => exact s.setMem_reg seg m b
  | imm w => rfl

theorem Res.outcome_mapState_setMem (res : Res Unit) (seg : Segment) (m : Memory) :
    (res.mapState (State.setMem seg m)).outcome = mapNext (State.setMem seg m) res.outcome := by
  cases res with
  | raised e s => cases seg <;> rfl
  | done u s => rfl
  | hung why => rfl

theorem codeRead_setMem (h : seg ≠ .code) (a : Word) (s : State) :
    codeRead a (s.setMem seg m) = (codeRead a s).mapState (State.setMem seg m) := by
  have hcode : (s.setMem seg m).code = s.code := s.mem_setMem_of_ne h.symm m
  unfold codeRead
  rw [hcode, State.setMem_config]
  split <;> rfl

theorem checkWritable_setMem (d : RegIdx) (s : State) :
    checkWritable d (s.setMem seg m) = (checkWritable d s).mapState (State.setMem seg m) := by
  unfold checkWritable
  split <;> rfl

theorem writeReg_setMem (d : RegIdx) (w : Word) (s : State) :
    writeReg d w (s.setMem seg m) = (writeReg d w s).mapState (State.setMem seg m) := by
  unfold writeReg
  split
  · rfl
  · exact congrArg (Res.done ()) (s.setMem_setReg seg m d w)

theorem arithmetic_setMem (f : ArithFn) (d : RegIdx) (a b : Word) (s : State) :
    arithmetic f d a b (s.setMem seg m) = (arithmetic f d a b s).mapState (State.setMem seg m) := by
  unfold arithmetic
  split
  · rfl
  · exact writeReg_setMem d _ s

theorem swapRegisters_setMem (d s0 : RegIdx) (s : State) :
    swapRegisters d s0 (s.setMem seg m) = (swapRegisters d s0 s).mapState (State.setMem seg m) := by
  unfold swapRegisters
  rw [State.setMem_reg, State.setMem_reg]
  exact Res.andThen_mapState (checkWritable_setMem d s) fun _ s1 _ =>
    Res.andThen_mapState (checkWritable_setMem s0 s1) fun _ s2 _ =>
      Res.andThen_mapState (writeReg_setMem d _ s2) fun _ s3 _ => writeReg_setMem s0 _ s3

/-! The router reads the configuration; only RAM's cells are in the data segment. -/

theorem memProbe_setMem (a : Word) (s : State) :
    memProbe a (s.setMem seg m) = (memProbe a s).mapState (State.setMem seg m) := by
  unfold memProbe
  rw [route_congr (State.setMem_config s seg m)]
  split <;> rfl

theorem callDevice_setMem (dev : Device) (p : IoAccess) (s : State) :
    callDevice dev p (s.setMem seg m) = (callDevice dev p s).mapState (State.setMem seg m) := by
  unfold callDevice
  rw [State.setMem_io]
  split <;> cases seg <;> rfl

theorem memRead_setMem (h : seg ≠ .data) (a : Word) (s : State) :
    memRead a (s.setMem seg m) = (memRead a s).mapState (State.setMem seg m) := by
  have hdata : (s.setMem seg m).data = s.data := s.mem_setMem_of_ne h.symm m
  unfold memRead
  rw [route_congr (State.setMem_config s seg m), hdata]
  split
  · rfl
  · exact callDevice_setMem _ _ s
  · rfl

theorem memWrite_setMem (h : seg ≠ .data) (a w : Word) (s : State) :
    memWrite a w (s.setMem seg m) = (memWrite a w s).mapState (State.setMem seg m) := by
  have hdata : (s.setMem seg m).data = s.data := s.mem_setMem_of_ne h.symm m
  unfold memWrite
  rw [route_congr (State.setMem_config s seg m), hdata]
  split
  · exact congrArg (Res.done ()) (s.setMem_comm h _ _)
  · exact Res.andThen_mapState (callDevice_setMem _ _ s) fun _ _ _ => rfl
  · rfl

theorem admitPlace_setMem (p : Place) (s : State) :
    admitPlace p (s.setMem seg m) = (admitPlace p s).mapState (State.setMem seg m) := by
  cases p with
  | reg b => exact checkWritable_setMem b s
  | memByReg b =>
    simp only [admitPlace, State.setMem_reg]
    exact memProbe_setMem _ s
  | memByImm imm => exact memProbe_setMem imm s

theorem readPlace_setMem {p : Place} (h : p.inData = true → seg ≠ .data) (s : State) :
    readPlace p (s.setMem seg m) = (readPlace p s).mapState (State.setMem seg m) := by
  cases p with
  | reg b => simp only [readPlace, State.setMem_reg, Res.mapState_done]
  | memByReg b =>
    simp only [readPlace, State.setMem_reg]
    exact memRead_setMem (h rfl) _ s
  | memByImm imm => exact memRead_setMem (h rfl) imm s

theorem readOperand_setMem {o : Operand} (h : o.inData = true → seg ≠ .data) (s : State) :
    readOperand o (s.setMem seg m) = (readOperand o s).mapState (State.setMem seg m) := by
  cases o with
  | place p => exact readPlace_setMem h s
  | literal imm => rfl

theorem writePlace_setMem {p : Place} (h : p.inData = true → seg ≠ .data) (w : Word) (s : State) :
    writePlace p w (s.setMem seg m) = (writePlace p w s).mapState (State.setMem seg m) := by
  cases p with
  | reg b => exact writeReg_setMem b w s
  | memByReg b =>
    simp only [writePlace, State.setMem_reg]
    exact memWrite_setMem (h rfl) _ w s
  | memByImm imm => exact memWrite_setMem (h rfl) imm w s

theorem copyInto_setMem {dst : Place} {src : Operand} (hdst : dst.inData = true → seg ≠ .data)
    (hsrc : src.inData = true → seg ≠ .data) (s : State) :
    copyInto dst src (s.setMem seg m) = (copyInto dst src s).mapState (State.setMem seg m) :=
  Res.andThen_mapState (admitPlace_setMem dst s) fun _ t _ =>
    Res.andThen_mapState (readOperand_setMem hsrc t) fun w u _ => writePlace_setMem hdst w u

theorem swapRegisterCell_setMem (h : seg ≠ .data) (d : RegIdx) (a : Word) (s : State) :
    swapRegisterCell d a (s.setMem seg m) = (swapRegisterCell d a s).mapState (State.setMem seg m) := by
  unfold swapRegisterCell
  rw [State.setMem_reg]
  exact Res.andThen_mapState (checkWritable_setMem d s) fun _ s1 _ =>
    Res.andThen_mapState (memRead_setMem h a s1) fun v s2 _ =>
      Res.andThen_mapState (memWrite_setMem h a _ s2) fun _ s3 _ => writeReg_setMem d v s3

theorem swapCells_setMem (h : seg ≠ .data) (a1 a2 : Word) (s : State) :
    swapCells a1 a2 (s.setMem seg m) = (swapCells a1 a2 s).mapState (State.setMem seg m) :=
  Res.andThen_mapState (memProbe_setMem a1 s) fun _ s1 _ =>
    Res.andThen_mapState (memProbe_setMem a2 s1) fun _ s2 _ =>
      Res.andThen_mapState (memRead_setMem h a1 s2) fun v1 s3 _ =>
        Res.andThen_mapState (memRead_setMem h a2 s3) fun v2 s4 _ =>
          Res.andThen_mapState (memWrite_setMem h a1 v2 s4) fun _ s5 _ => memWrite_setMem h a2 v1 s5

theorem push_setMem {k : StackId} (h : seg ≠ stackSegment k) (w : Word) (s : State) :
    push k w (s.setMem seg m) = (push k w s).mapState (State.setMem seg m) := by
  have haddr : pushAddress k (s.setMem seg m) = pushAddress k s := by
    rw [pushAddress, State.setMem_reg, pushAddress]
  unfold push
  rw [haddr, State.setMem_size, State.mem_setMem_of_ne s h.symm, State.setMem_setReg, State.setMem_comm _ h]
  split <;> rfl

theorem peek_setMem {k : StackId} (h : seg ≠ stackSegment k) (s : State) :
    peek k (s.setMem seg m) = (peek k s).mapState (State.setMem seg m) := by
  unfold peek
  rw [State.setMem_reg, State.setMem_size, State.mem_setMem_of_ne s h.symm]
  split <;> rfl

theorem pop_setMem {k : StackId} (h : seg ≠ stackSegment k) (s : State) :
    pop k (s.setMem seg m) = (pop k s).mapState (State.setMem seg m) := by
  refine Res.andThen_mapState (peek_setMem h s) fun w t _ => ?_
  rw [State.setMem_reg, State.setMem_setReg]
  rfl

theorem branch_setMem {isCall : Bool} (h : isCall = true → seg ≠ .call) (addr : Word) (s : State) :
    branch addr isCall (s.setMem seg m) = (branch addr isCall s).mapState (State.setMem seg m) := by
  cases isCall with
  | false => exact congrArg (Res.done ()) (s.setMem_jumpTo seg m addr)
  | true =>
    unfold branch
    rw [State.setMem_nextAddress]
    exact Res.andThen_mapState (push_setMem (k := .callStack) (h rfl) _ s) fun _ t _ =>
      congrArg (Res.done ()) (t.setMem_jumpTo seg m addr)

theorem conditional_setMem {isCall : Bool} (h : isCall = true → seg ≠ .call) (cond : Bool) (target : Word) (s : State) :
    conditional cond target isCall (s.setMem seg m) = (conditional cond target isCall s).mapState (State.setMem seg m) := by
  have huntaken : (isCall && s.config.untakenCallPushes) = true → seg ≠ .call :=
    fun hpush => h (Bool.and_eq_true_iff.mp hpush).1
  unfold conditional
  rw [State.setMem_nextAddress, State.setMem_config, branch_setMem h, branch_setMem huntaken]
  split <;> rfl

/-- An action neither reads nor writes a segment it does not reach. -/
theorem Action.run_setMem {a : Action} (h : seg ∉ a.segments) (s : State) :
    a.run (s.setMem seg m) = (a.run s).mapState (State.setMem seg m) := by
  cases a <;> simp only [Action.run, Source.value_setMem, State.setMem_reg, State.setMem_pred]
  case arithmetic f d x y => exact arithmetic_setMem f d _ _ s
  case copy dst src =>
    have hcopy : (dst.inData || src.inData) = true → seg ≠ .data := by
      rintro hdata rfl
      simp [Action.segments, hdata] at h
    exact copyInto_setMem (fun hd => hcopy (by rw [hd, Bool.true_or])) (fun hs => hcopy (by rw [hs, Bool.or_true])) s
  case swapRegisters d s0 => exact swapRegisters_setMem d s0 s
  case swapRegisterCell d cell => exact swapRegisterCell_setMem (List.ne_of_not_mem_cons h) d _ s
  case swapCells d cell => exact swapCells_setMem (List.ne_of_not_mem_cons h) _ _ s
  case push x => exact push_setMem (k := .dataStack) (List.ne_of_not_mem_cons h) _ s
  case pop d =>
    exact Res.andThen_mapState (checkWritable_setMem d s) fun _ s1 _ =>
      Res.andThen_mapState (pop_setMem (k := .dataStack) (List.ne_of_not_mem_cons h) s1) fun w s2 _ =>
        writeReg_setMem d w s2
  case peek d =>
    exact Res.andThen_mapState (checkWritable_setMem d s) fun _ s1 _ =>
      Res.andThen_mapState (peek_setMem (k := .dataStack) (List.ne_of_not_mem_cons h) s1) fun w s2 _ =>
        writeReg_setMem d w s2
  case compare p c s0 s1 =>
    unfold compareWith
    rw [State.setMem_pred, State.setMem_reg, State.setMem_reg, State.setMem_setReg, Res.mapState_done]
  case branch target isCall => exact branch_setMem (fun hc => by simpa [Action.segments, hc] using h) _ s
  case conditional sense target isCall =>
    exact conditional_setMem (fun hc => by simpa [Action.segments, hc] using h) _ _ s
  case select sense s0 s1 isCall => exact branch_setMem (fun hc => by simpa [Action.segments, hc] using h) _ s
  case ret =>
    exact Res.andThen_mapState (pop_setMem (k := .callStack) (List.ne_of_not_mem_cons h) s) fun w t _ =>
      congrArg (Res.done ()) (t.setMem_jumpTo seg m w)
  case terminate => cases seg <;> rfl
  case panic payload => rfl
  case putc s0 s1 => cases seg <;> rfl

end OtherSegment

end Sys2Proof.Machine

open Sys2Proof Sys2Proof.Machine Sys2Proof.Statements

/-- Settles O20: no update within a step touches the three, nor does the advance or the taking of an error after it. -/
theorem stepKeepsConfigurationAndCode : Obligations.StepKeepsConfigurationAndCode := by
  intro s t hstep
  rcases step_cases hstep with ⟨_, rfl⟩ | ⟨_, f, u, hu, ht⟩
  · exact ⟨rfl, rfl, rfl⟩
  · obtain ⟨hconfig, hunits, -, -, hcode⟩ := hu.fixed
    rcases ht with rfl | ⟨e, rfl⟩
    · obtain ⟨hconfig', hcode', hunits'⟩ := u.advance_fixed
      exact ⟨hconfig'.trans hconfig, hcode'.trans hcode, hunits'.trans hunits⟩
    · exact ⟨hconfig, hcode, hunits⟩

/-- Settles O21: every action commutes with a change of a segment it does not reach, and so does the read of a code cell. -/
theorem segmentsAreSeparate : Obligations.SegmentsAreSeparate := by
  refine ⟨fun i seg m s hseg => ?_, fun a seg m s hseg w hread => ?_⟩
  · rw [← segments_action] at hseg
    rw [exec_eq_run, exec_eq_run, Action.run_setMem hseg, Res.outcome_mapState_setMem]
  · rw [codeRead_setMem hseg, hread, Res.mapState_done]

end

section
/-! PROOFS. The codec between a word and its record: each field as a number, so that both directions of the inverse are
arithmetic (30_encoding.md R100 to R107). -/

namespace Sys2Proof

open Sys2Proof.Machine

/-! ### A record as a number -/

theorem toNat_encodeFields_eq_add (r : DecodedInstruction) :
    (encodeFields r).toNat = r.group.toNat + 8 * r.op.toNat + 256 * r.data0.toNat + 65536 * r.data1.toNat +
      16777216 * r.data2.toNat := by
  simp only [encodeFields, toNat_append_eq_add]
  omega

/-- Or-ing in a field above the bits in use is adding it. -/
theorem or_shiftLeft_eq_add {a i : Nat} (h : a < 2 ^ i) (b : Nat) : a ||| b <<< i = a + 2 ^ i * b := by
  rw [Nat.or_comm, ← Nat.shiftLeft_add_eq_or_of_lt h, Nat.shiftLeft_eq, Nat.mul_comm, Nat.add_comm]

theorem toNat_encodeFields_eq_or (r : DecodedInstruction) :
    (encodeFields r).toNat = r.group.toNat ||| r.op.toNat <<< 3 ||| r.data0.toNat <<< 8 ||| r.data1.toNat <<< 16 |||
      r.data2.toNat <<< 24 := by
  have hg : r.group.toNat < 8 := r.group.isLt
  have hop : r.op.toNat < 32 := r.op.isLt
  have h0 : r.data0.toNat < 256 := r.data0.isLt
  have h1 : r.data1.toNat < 256 := r.data1.isLt
  rw [toNat_encodeFields_eq_add, or_shiftLeft_eq_add (i := 3) hg, or_shiftLeft_eq_add (i := 8) (by omega),
    or_shiftLeft_eq_add (i := 16) (by omega), or_shiftLeft_eq_add (i := 24) (by omega)]
  omega

theorem toNat_extractLsb'_eq_div (w : Cell32) (start len : Nat) :
    (w.extractLsb' start len).toNat = w.toNat / 2 ^ start % 2 ^ len := by
  rw [BitVec.extractLsb'_toNat, Nat.shiftRight_eq_div_pow]

theorem toNat_decodeFields (w : Cell32) :
    (decodeFields w).group.toNat = w.toNat % 8 ∧ (decodeFields w).op.toNat = w.toNat / 8 % 32 ∧
    (decodeFields w).data0.toNat = w.toNat / 256 % 256 ∧ (decodeFields w).data1.toNat = w.toNat / 65536 % 256 ∧
    (decodeFields w).data2.toNat = w.toNat / 16777216 := by
  have hw : w.toNat < 4294967296 := w.isLt
  have h2 : (decodeFields w).data2.toNat = w.toNat / 16777216 % 256 := toNat_extractLsb'_eq_div w 24 8
  exact ⟨BitVec.extractLsb'_toNat 0 3 w, toNat_extractLsb'_eq_div w 3 5, toNat_extractLsb'_eq_div w 8 8,
    toNat_extractLsb'_eq_div w 16 8, by omega⟩

/-- Two records with equal fields, as numbers, are equal. -/
theorem DecodedInstruction.eq_of_toNat {r r' : DecodedInstruction} (hg : r.group.toNat = r'.group.toNat)
    (hop : r.op.toNat = r'.op.toNat) (h0 : r.data0.toNat = r'.data0.toNat) (h1 : r.data1.toNat = r'.data1.toNat)
    (h2 : r.data2.toNat = r'.data2.toNat) : r = r' := by
  cases r
  cases r'
  simp_all [BitVec.toNat_inj]

theorem encodeFields_decodeFields (w : Cell32) : encodeFields (decodeFields w) = w := by
  obtain ⟨hg, hop, h0, h1, h2⟩ := toNat_decodeFields w
  refine BitVec.eq_of_toNat_eq ?_
  rw [toNat_encodeFields_eq_add, hg, hop, h0, h1, h2]
  omega

theorem decodeFields_encodeFields (r : DecodedInstruction) : decodeFields (encodeFields r) = r := by
  obtain ⟨hg, hop, h0, h1, h2⟩ := toNat_decodeFields (encodeFields r)
  rw [toNat_encodeFields_eq_add] at hg hop h0 h1 h2
  apply DecodedInstruction.eq_of_toNat <;> omega

theorem decodeFields_eq_iff {w : Cell32} {r : DecodedInstruction} : decodeFields w = r ↔ w = encodeFields r :=
  ⟨fun h => by rw [← h, encodeFields_decodeFields], fun h => by rw [h, decodeFields_encodeFields]⟩

/-! ### Field values and the immediate -/

theorem FieldValues.wellFormed_iff (v : FieldValues) :
    v.wellFormed = true ↔ v.group < 8 ∧ v.op < 32 ∧ v.data0 < 256 ∧ v.data1 < 256 ∧ v.data2 < 256 := by
  simp [wellFormed, and_assoc]

theorem encodeChecked_of_wellFormed {v : FieldValues} (h : v.wellFormed = true) :
    ∃ w, encodeChecked v = some w ∧ (decodeFields w).values = v := by
  obtain ⟨hg, hop, h0, h1, h2⟩ := v.wellFormed_iff.mp h
  refine ⟨_, if_pos h, ?_⟩
  rw [decodeFields_encodeFields]
  simp [DecodedInstruction.values, Nat.mod_eq_of_lt, hg, hop, h0, h1, h2]

theorem encodeChecked_of_not_wellFormed {v : FieldValues} (h : ¬ v.wellFormed = true) : encodeChecked v = none :=
  if_neg h

theorem DecodedInstruction.toNat_immediate (r : DecodedInstruction) :
    r.immediate.toNat = 256 * r.data2.toNat + r.data1.toNat := by
  rw [immediate, toNat_append_eq_add]
  omega

theorem immHigh_append_immLow (imm : Word) : immHigh imm ++ immLow imm = imm :=
  BitVec.extractLsb'_append_extractLsb' (w := 8) (len := 8)

theorem DecodedInstruction.immLow_immediate (r : DecodedInstruction) : immLow r.immediate = r.data1 :=
  BitVec.extractLsb'_append_eq_right

theorem DecodedInstruction.immHigh_immediate (r : DecodedInstruction) : immHigh r.immediate = r.data2 :=
  BitVec.extractLsb'_append_eq_left

/-! ### Image bytes -/

theorem cellOfBytes_cellByte (w : Cell32) :
    cellOfBytes (cellByte w 0) (cellByte w 1) (cellByte w 2) (cellByte w 3) = w := by
  unfold cellOfBytes cellByte
  iterate 3 rw [BitVec.extractLsb'_append_extractLsb'_eq_extractLsb' (by decide)]
  exact BitVec.extractLsb'_eq_self

end Sys2Proof

section
open Sys2Proof Sys2Proof.Machine Sys2Proof.Statements

/-- Settles O2: the fields as numbers, with the immediate as its two bytes. -/
theorem decodeFieldValues : Obligations.DecodeFieldValues := by
  intro w
  obtain ⟨hg, hop, h0, h1, h2⟩ := toNat_decodeFields w
  have himm := (decodeFields w).toNat_immediate
  exact ⟨hg, hop, h0, h1, h2, by omega, himm⟩

end
end

section
/-! PROOFS. The opcode map: a word is an instruction's word exactly when the bits that instruction reads are its own, from
which both the decoding of an encoded instruction and the ignored bytes follow (30_encoding.md R108 to R121). -/

namespace Sys2Proof

open Sys2Proof.Statements

/-! ### The bits an instruction reads, as operand bytes of its record -/

/-- The masks of the opcode table: the control byte and whole operand bytes. -/
def operandMasks : List Cell32 :=
  [0xFFFFFFFF#32, 0x00FFFFFF#32, 0xFFFF00FF#32, 0x00FF00FF#32, 0x0000FFFF#32, 0x000000FF#32]

theorem readMask_mem_operandMasks (i : Instr) : readMask i ∈ operandMasks := by
  cases i <;> simp [readMask, operandMasks]

theorem decodeFields_operandMask {m : Cell32} (h : m ∈ operandMasks) :
    decodeFields m =
      { group := BitVec.allOnes 3, op := BitVec.allOnes 5, data0 := BitVec.fill 8 (m.getLsbD 8),
        data1 := BitVec.fill 8 (m.getLsbD 16), data2 := BitVec.fill 8 (m.getLsbD 24) } := by
  simp only [operandMasks, List.mem_cons, List.not_mem_nil, or_false] at h
  rcases h with rfl | rfl | rfl | rfl | rfl | rfl <;> decide

/-- The byte if it is read, else 0. -/
def keepByte (read : Bool) (b : Byte) : Byte :=
  if read then b else 0#8

@[simp] theorem keepByte_true (b : Byte) : keepByte true b = b := rfl

@[simp] theorem keepByte_false (b : Byte) : keepByte false b = 0#8 := rfl

theorem and_fill (b : Byte) (read : Bool) : b &&& BitVec.fill 8 read = keepByte read b := by
  cases read with
  | true => exact BitVec.fill_true ▸ BitVec.and_allOnes
  | false => exact BitVec.fill_false ▸ BitVec.and_zero

/-- The record as instruction `i` reads it: the operand bytes outside its mask are 0. -/
def DecodedInstruction.readBy (i : Instr) (r : DecodedInstruction) : DecodedInstruction :=
  { r with
    data0 := keepByte ((readMask i).getLsbD 8) r.data0
    data1 := keepByte ((readMask i).getLsbD 16) r.data1
    data2 := keepByte ((readMask i).getLsbD 24) r.data2 }

theorem decodeFields_and (w m : Cell32) :
    decodeFields (w &&& m) =
      { group := (decodeFields w).group &&& (decodeFields m).group, op := (decodeFields w).op &&& (decodeFields m).op,
        data0 := (decodeFields w).data0 &&& (decodeFields m).data0,
        data1 := (decodeFields w).data1 &&& (decodeFields m).data1,
        data2 := (decodeFields w).data2 &&& (decodeFields m).data2 } := by
  simp only [decodeFields, BitVec.extractLsb'_and]

theorem decodeFields_and_readMask (w : Cell32) (i : Instr) :
    decodeFields (w &&& readMask i) = (decodeFields w).readBy i := by
  rw [decodeFields_and, decodeFields_operandMask (readMask_mem_operandMasks i), BitVec.and_allOnes, BitVec.and_allOnes,
    and_fill, and_fill, and_fill]
  rfl

/-! ### One row of the table per instruction -/

/-- The bytes an instruction ignores are 0 in its own record (30_encoding.md R118). -/
theorem readBy_record (i : Instr) : i.record.readBy i = i.record := by
  cases i <;> simp [DecodedInstruction.readBy, readMask, Instr.record, recordR, recordI]

/-- The bytes an instruction ignores do not decide what a record selects: one case per row of the opcode table. -/
theorem select_of_readBy {i : Instr} {r : DecodedInstruction} (h : r.readBy i = i.record) : select r = .instr i := by
  obtain ⟨g, op, d0, d1, d2⟩ := r
  cases i <;> simp [DecodedInstruction.readBy, readMask, Instr.record, recordR, recordI] at h <;>
    simp [h, select, selectArithmetic, selectMove, selectCompare, selectJump, selectMisc, DecodedInstruction.immediate,
      immHigh_append_immLow]

/-- The row of the table that a record selects has its group, its op and the operand bytes that are read. -/
theorem readBy_of_select {i : Instr} {r : DecodedInstruction} (h : select r = .instr i) : r.readBy i = i.record := by
  unfold select at h
  split at h
  case h_6 => cases h
  case' h_1 => unfold selectArithmetic at h
  case' h_2 => unfold selectMove at h
  case' h_3 => unfold selectCompare at h
  case' h_4 => unfold selectJump at h
  case' h_5 =>
    unfold selectMisc at h
    split at h
    case' h_2 => cases h
  all_goals
    split at h <;> cases h <;>
    simp [DecodedInstruction.readBy, readMask, Instr.record, recordR, recordI, r.immLow_immediate, r.immHigh_immediate,
      ← BitVec.toNat_inj, *]

theorem decode_eq_instr_iff (w : Cell32) (i : Instr) : decode w = .instr i ↔ w &&& readMask i = encode i :=
  calc decode w = .instr i ↔ (decodeFields w).readBy i = i.record := ⟨readBy_of_select, select_of_readBy⟩
    _ ↔ decodeFields (w &&& readMask i) = i.record := by rw [decodeFields_and_readMask]
    _ ↔ w &&& readMask i = encode i := decodeFields_eq_iff

theorem decode_encode (i : Instr) : decode (encode i) = .instr i := by
  rw [decode, encode, decodeFields_encodeFields]
  exact select_of_readBy (readBy_record i)

theorem decodeBytes_cellByte {w : Cell32} {i : Instr} (h : decode w = .instr i) :
    decodeBytes [cellByte w 0, cellByte w 1, cellByte w 2, cellByte w 3] = .instr i [] := by
  rw [decodeBytes, cellOfBytes_cellByte, h]

theorem decodeTableWord_of_decode {w : Cell32} {i : Instr} (h : decode w = .instr i) :
    decodeTableWord 32 w.toNat = some i := by
  have hw : BitVec.ofNat 32 (w.toNat % 2 ^ 32) = w := by
    rw [Nat.mod_eq_of_lt w.isLt, BitVec.ofNat_toNat, BitVec.setWidth_eq]
  rw [decodeTableWord, hw, decodeBytes_cellByte h]

end Sys2Proof

section
open Sys2Proof Sys2Proof.Machine Sys2Proof.Statements

/-- Settles O3: the word of an instruction has that instruction's bits, and the image bytes give the word back. -/
theorem decodeInvertsEncode : Obligations.DecodeInvertsEncode :=
  fun i _ => ⟨decode_encode i, decodeBytes_cellByte (decode_encode i), decodeTableWord_of_decode (decode_encode i)⟩

/-- Settles O4: masking the word is reading the record by the instruction, which the opcode map inverts row by row. -/
theorem decodeReadsExactlyTheFields : Obligations.DecodeReadsExactlyTheFields :=
  decode_eq_instr_iff

/-- Settles O5: each word, masked, is the word of its instruction. -/
theorem sampleWordsDecode : Obligations.SampleWordsDecode := by
  simp only [Obligations.SampleWordsDecode, decode_eq_instr_iff]
  decide

end
end

section
/-! PROOFS. The undefined encodings (30_encoding.md R116), and the errors a step can latch: an operation raises only the errors
of its own rules, so no step raises those of the codec, of setup or of the units (60_exceptions.md R375). -/

namespace Sys2Proof

open Sys2Proof.Machine Sys2Proof.Statements

/-! ### The table of R116, group by group -/

/-- The error that dispatch raises, nothing being registered, for what the opcode map finds; none for an instruction. -/
def Decoded.error : Decoded → Option Machine.Error
  | .instr _ => none
  | .undefined u => some (undefinedError u)

theorem error_selectArithmetic (r : DecodedInstruction) :
    (selectArithmetic r).error = if 22 ≤ r.op.toNat then some (.notImplemented r.op) else none := by
  unfold selectArithmetic
  split
  case h_23 => exact (if_pos (by simp only [imp_false] at *; omega)).symm
  all_goals exact (if_neg (by omega)).symm

theorem error_selectMove (r : DecodedInstruction) :
    (selectMove r).error = if 17 ≤ r.op.toNat then some (.invalidMoveOperation r.op) else none := by
  unfold selectMove
  split
  case h_18 => exact (if_pos (by simp only [imp_false] at *; omega)).symm
  all_goals exact (if_neg (by omega)).symm

theorem error_selectCompare (r : DecodedInstruction) :
    (selectCompare r).error = if 24 ≤ r.op.toNat then some (.invalidCompareOperation r.op) else none := by
  unfold selectCompare
  split
  case h_25 => exact (if_pos (by simp only [imp_false] at *; omega)).symm
  all_goals exact (if_neg (by omega)).symm

theorem error_selectJump (r : DecodedInstruction) :
    (selectJump r).error = if 17 ≤ r.op.toNat then some (.illegalJumpOperation r.op) else none := by
  unfold selectJump
  split
  case h_18 => exact (if_pos (by simp only [imp_false] at *; omega)).symm
  all_goals exact (if_neg (by omega)).symm

theorem error_selectMisc (r : DecodedInstruction) :
    (selectMisc r).error =
      if 1 ≤ r.op.toNat then some (.invalidMiscOperation r.op)
      else if 3 ≤ r.data0.toNat then some (.invalidSystemCommand r.data0) else none := by
  unfold selectMisc
  split
  case h_2 => exact (if_pos (by simp only [imp_false] at *; omega)).symm
  case h_1 =>
    rw [if_neg (by omega)]
    split
    case h_4 => exact (if_pos (by simp only [imp_false] at *; omega)).symm
    all_goals exact (if_neg (by omega)).symm

/-- The opcode map leaves out exactly the encodings of R116. -/
theorem error_select (r : DecodedInstruction) : (select r).error = undefinedEncoding r := by
  unfold select undefinedEncoding
  split
  case h_1 hg => rw [if_neg (by omega), if_pos hg, error_selectArithmetic]
  case h_2 hg => simp [hg, error_selectMove]
  case h_3 hg => simp [hg, error_selectCompare]
  case h_4 hg => simp [hg, error_selectJump]
  case h_5 hg => simp [hg, error_selectMisc]
  case h_6 => exact (if_pos (by simp only [imp_false] at *; omega)).symm

theorem Decoded.error_eq_none_iff (dec : Decoded) : dec.error = none ↔ ∃ i, dec = .instr i := by
  cases dec <;> simp [Decoded.error]

theorem Decoded.error_eq_some_iff {dec : Decoded} {e : Machine.Error} :
    dec.error = some e ↔ ∃ u, dec = .undefined u ∧ undefinedError u = e := by
  cases dec <;> simp [Decoded.error]

end Sys2Proof

namespace Sys2Proof.Machine

/-! ### The step at an undefined encoding -/

theorem fetch_of_lt {s : State} (h : s.ip.toNat < s.config.codeSize) : fetch s = .done (s.code.readCell s.ip.toNat) s :=
  if_neg (Nat.not_le.mpr h)

/-- Dispatch raises the error of an undefined encoding; for a selector, where the system-call table holds Invalid. -/
theorem dispatchUndefined_eq_raised {u : Undefined} {s : State}
    (h : ∀ sel, undefinedError u = .invalidSystemCommand sel → systemCallTable s.config sel = .invalid) :
    dispatchUndefined u s = .raised (undefinedError u) s := by
  cases u with
  | systemCommand sel s0 s1 => exact systemCall_invalid (h sel rfl) s0 s1
  | _ => rfl

/-- A step at an undefined encoding takes its error and does nothing else. -/
theorem step_undefined {s : State} {u : Undefined} (hrun : s.running = true) (hip : s.ip.toNat < s.config.codeSize)
    (hdec : decode (s.code.readCell s.ip.toNat) = .undefined u)
    (hsys : ∀ sel, undefinedError u = .invalidSystemCommand sel → systemCallTable s.config sel = .invalid) :
    step s = .next (s.beginStep.takeError (undefinedError u)) := by
  have hfetch : fetch s.beginStep = .done (s.code.readCell s.ip.toNat) s.beginStep := fetch_of_lt hip
  have hdisp : dispatchUndefined u s.beginStep = .raised (undefinedError u) s.beginStep := dispatchUndefined_eq_raised hsys
  rw [step, if_pos hrun, runStep, hfetch]
  simp only [hdec, dispatchDecoded, hdisp, Res.outcome_raised, State.finishStep_takeError]

/-! ### The errors an operation raises -/

/-- The error is one that a step can raise: not the codec's, the platform's at setup, or a unit's (60_exceptions.md R375). -/
def Error.FromStep : Error → Prop
  | .decodeRangeError | .overlappingDevice | .unitNotRunning | .unitAlreadyRunning => False
  | _ => True

/-- An error the operation raises, if it raises one, is such an error. -/
def Res.RaisesStepErrors {α : Type} : Res α → Prop
  | .raised e _ => e.FromStep
  | _ => True

theorem Res.RaisesStepErrors.andThen {α β : Type} {r : Res α} {g : α → State → Res β} (hr : r.RaisesStepErrors)
    (hg : ∀ a t, (g a t).RaisesStepErrors) : (r.andThen g).RaisesStepErrors := by
  cases r with
  | done a t => exact hg a t
  | raised e t => exact hr
  | hung why => trivial

theorem checkWritable_raises (i : RegIdx) (s : State) : (checkWritable i s).RaisesStepErrors := by
  rcases checkWritable_cases i s with ⟨_, h⟩ | ⟨_, h⟩ <;> rw [h] <;> trivial

theorem writeReg_raises (i : RegIdx) (v : Word) (s : State) : (writeReg i v s).RaisesStepErrors := by
  rcases writeReg_cases i v s with ⟨_, h⟩ | ⟨_, h⟩ <;> rw [h] <;> trivial

theorem memProbe_raises (a : Word) (s : State) : (memProbe a s).RaisesStepErrors := by
  rcases memProbe_cases a s with ⟨_, h⟩ | ⟨_, h⟩ <;> rw [h] <;> trivial

theorem memRead_raises (a : Word) (s : State) : (memRead a s).RaisesStepErrors := by
  cases h : memRead a s with
  | raised e t => rcases memRead_raised h with ⟨_, rfl, _⟩ | ⟨_, _, _, rfl, _⟩ <;> trivial
  | _ => trivial

theorem memWrite_raises (a v : Word) (s : State) : (memWrite a v s).RaisesStepErrors := by
  cases h : memWrite a v s with
  | raised e t => rcases memWrite_raised h with ⟨_, rfl, _⟩ | ⟨_, _, _, rfl, _⟩ <;> trivial
  | _ => trivial

theorem push_raises (k : StackId) (v : Word) (s : State) : (push k v s).RaisesStepErrors := by
  rcases push_cases k v s with ⟨_, h⟩ | ⟨_, h⟩ <;> rw [h] <;> trivial

theorem peek_raises (k : StackId) (s : State) : (peek k s).RaisesStepErrors := by
  rcases peek_cases k s with ⟨_, h⟩ | ⟨_, h⟩ <;> rw [h] <;> trivial

theorem pop_raises (k : StackId) (s : State) : (pop k s).RaisesStepErrors := by
  rcases pop_cases k s with ⟨_, h⟩ | ⟨_, h⟩ <;> rw [h] <;> trivial

theorem branch_raises (addr : Word) (isCall : Bool) (s : State) : (branch addr isCall s).RaisesStepErrors := by
  rcases branch_cases addr isCall s with ⟨_, _, h⟩ | ⟨_, _, h⟩ | ⟨_, h⟩ <;> rw [h] <;> trivial

theorem conditional_raises (cond : Bool) (target : Word) (isCall : Bool) (s : State) :
    (conditional cond target isCall s).RaisesStepErrors := by
  unfold conditional
  split
  · exact branch_raises target isCall s
  · exact branch_raises _ _ s

theorem arithmetic_raises (f : ArithFn) (d : RegIdx) (a b : Word) (s : State) :
    (arithmetic f d a b s).RaisesStepErrors := by
  rcases arithmetic_cases f d a b s with ⟨_, h⟩ | ⟨_, _, _, h⟩ | ⟨_, _, _, h⟩ <;> rw [h] <;> trivial

theorem copyInto_raises (dst : Place) (src : Operand) (s : State) : (copyInto dst src s).RaisesStepErrors := by
  refine .andThen ?_ fun _ t => .andThen ?_ fun v u => ?_
  · cases dst with
    | reg b => exact checkWritable_raises b s
    | memByReg b | memByImm b => exact memProbe_raises _ s
  · rcases src with (_ | _ | _) | _
    · trivial
    · exact memRead_raises _ t
    · exact memRead_raises _ t
    · trivial
  · cases dst with
    | reg b => exact writeReg_raises b v u
    | memByReg b | memByImm b => exact memWrite_raises _ v u

theorem Action.run_raises (a : Action) (s : State) : (a.run s).RaisesStepErrors := by
  cases a with
  | arithmetic f d x y => exact arithmetic_raises f d _ _ s
  | copy dst src => exact copyInto_raises dst src s
  | swapRegisters d s0 =>
    exact .andThen (checkWritable_raises d s) fun _ t => .andThen (checkWritable_raises s0 t) fun _ u =>
      .andThen (writeReg_raises d _ u) fun _ w => writeReg_raises s0 _ w
  | swapRegisterCell d cell =>
    exact .andThen (checkWritable_raises d s) fun _ t => .andThen (memRead_raises _ t) fun v u =>
      .andThen (memWrite_raises _ _ u) fun _ w => writeReg_raises d v w
  | swapCells d cell =>
    exact .andThen (memProbe_raises _ s) fun _ t => .andThen (memProbe_raises _ t) fun _ u =>
      .andThen (memRead_raises _ u) fun v w => .andThen (memRead_raises _ w) fun v' x =>
        .andThen (memWrite_raises _ v' x) fun _ y => memWrite_raises _ v y
  | push v => exact push_raises _ _ s
  | pop d =>
    exact .andThen (checkWritable_raises d s) fun _ t => .andThen (pop_raises _ t) fun v u => writeReg_raises d v u
  | peek d =>
    exact .andThen (checkWritable_raises d s) fun _ t => .andThen (peek_raises _ t) fun v u => writeReg_raises d v u
  | branch target isCall => exact branch_raises _ isCall s
  | conditional sense target isCall => exact conditional_raises _ _ isCall s
  | select sense s0 s1 isCall => exact branch_raises _ isCall s
  | ret => exact .andThen (pop_raises _ s) fun _ _ => trivial
  | compare | terminate | panic | putc => trivial

theorem dispatchUndefined_raises (u : Undefined) (s : State) : (dispatchUndefined u s).RaisesStepErrors := by
  cases u with
  | systemCommand sel s0 s1 =>
    change (systemCall sel s0 s1 s).RaisesStepErrors
    rcases systemCall_cases sel s0 s1 s with ⟨_, _, _, h⟩ | ⟨_, h⟩ | ⟨_, h⟩ <;> rw [h] <;> trivial
  | _ => trivial

/-- The error a step latches is the one its operation raised: an update latches none. -/
theorem fromStep_of_outcome {f : Footprint} {s u : State} {r : Res Unit} {e : Error} (herr : s.error = none)
    (hr : r.RaisesStepErrors) (hends : r.Ends (Reaches f s)) (hu : r.outcome = .next u)
    (he : u.finishStep.error = some e) : e.FromStep := by
  rcases Res.outcome_eq_next.mp hu with rfl | ⟨e', w, rfl, rfl⟩
  · have hnone : u.error = none := by
      obtain ⟨_, _, _, herr', _⟩ := Reaches.fixed hends
      exact herr'.trans herr
    rw [State.finishStep_of_no_error hnone, State.advance_error, hnone] at he
    cases he
  · cases he
    exact hr

theorem step_error_fromStep {s t : State} {e : Error} (hrun : s.running = true) (h : step s = .next t)
    (he : t.error = some e) : e.FromStep := by
  have herr : s.beginStep.error = none := ((State.running_iff s).mp hrun).2
  rw [step, if_pos hrun, runStep] at h
  rcases fetch_cases s.beginStep with ⟨w, hfetch⟩ | hfetch <;> rw [hfetch] at h
  · obtain ⟨u, rfl, ⟨i, _, hexec⟩ | ⟨c, _, hout⟩⟩ := dispatchDecoded_next h
    · rw [exec_eq_run] at hexec
      exact fromStep_of_outcome herr (Action.run_raises _ _) (Action.run_reaches _ _) hexec he
    · exact fromStep_of_outcome herr (dispatchUndefined_raises c _) (dispatchUndefined_reaches c _) hout he
  · cases h
    cases he
    trivial

end Sys2Proof.Machine

section
open Sys2Proof Sys2Proof.Machine Sys2Proof.Statements

/-- Settles O6: the opcode map leaves out exactly the encodings of R116, and dispatch raises their error before anything is
done. -/
theorem undefinedEncodings : Obligations.UndefinedEncodings := by
  refine ⟨fun w => ?_, fun s e hrun hip he hsys => ?_,
    fun c sel hext hsel => systemCallTable_of_no_extension hext hsel, by decide +kernel, by decide +kernel⟩
  · rw [← error_select]
    exact (Decoded.error_eq_none_iff _).symm
  · rw [← error_select] at he
    obtain ⟨u, hdec, rfl⟩ := Decoded.error_eq_some_iff.mp he
    exact step_undefined hrun hip hdec hsys

/-- Settles O1: the inverses are arithmetic on the fields as numbers; a step latches only errors that its operations raise. -/
theorem codecFieldsExactInverse : Obligations.CodecFieldsExactInverse := by
  refine ⟨fun r => ⟨decodeFields_encodeFields r, toNat_encodeFields_eq_or r⟩, encodeFields_decodeFields,
    fun v hg hop h0 h1 h2 => encodeChecked_of_wellFormed (v.wellFormed_iff.mpr ⟨hg, hop, h0, h1, h2⟩),
    fun v hv => encodeChecked_of_not_wellFormed fun hwf => ?_,
    fun s t hrun hstep herr => step_error_fromStep hrun hstep herr⟩
  obtain ⟨hg, hop, h0, h1, h2⟩ := v.wellFormed_iff.mp hwf
  omega

end
end

section
/-! PROOFS. The words the rules write down byte by byte: each is the word of the record with its fields, so it decodes to the
instruction that reads that record (30_encoding.md R100, R106, R108). -/

namespace Sys2Proof

open Sys2Proof.Statements

/-- Byte 0 is the op above the group. -/
theorem wordR_eq_encodeFields (byte0 : Nat) (d s0 s1 : Byte) :
    wordR byte0 d s0 s1 = encodeFields (recordR (BitVec.ofNat 3 byte0) (BitVec.ofNat 5 (byte0 / 8)) d s0 s1) := by
  refine BitVec.eq_of_toNat_eq ?_
  simp only [wordR, Machine.toNat_append_eq_add, toNat_encodeFields_eq_add, recordR, BitVec.toNat_ofNat]
  omega

/-- The immediate is bytes 2 and 3, low byte first (30_encoding.md R105). -/
theorem wordI_eq_wordR (byte0 : Nat) (d : Byte) (imm : Word) :
    wordI byte0 d imm = wordR byte0 d (immLow imm) (immHigh imm) :=
  congrArg (· ++ d ++ BitVec.ofNat 8 byte0) (immHigh_append_immLow imm).symm

/-- What the opcode map makes of a format R word. -/
theorem decode_wordR (byte0 : Nat) (d s0 s1 : Byte) :
    decode (wordR byte0 d s0 s1) = select (recordR (BitVec.ofNat 3 byte0) (BitVec.ofNat 5 (byte0 / 8)) d s0 s1) := by
  rw [decode, wordR_eq_encodeFields, decodeFields_encodeFields]

/-- What the opcode map makes of a format I word: the immediate it reads is the high byte on the low byte. -/
theorem decode_wordI {byte0 : Nat} {d : Byte} {i : Word → Instr}
    (h : ∀ low high, select (recordR (BitVec.ofNat 3 byte0) (BitVec.ofNat 5 (byte0 / 8)) d low high) =
      .instr (i (high ++ low))) (imm : Word) :
    decode (wordI byte0 d imm) = .instr (i imm) := by
  rw [wordI_eq_wordR, decode_wordR, h, immHigh_append_immLow]

/-- The register of the low byte of the immediate, as a number and as the bits of the word. -/
theorem immRegister_eq_setWidth (imm : Word) : immRegister imm = imm.setWidth 8 := by
  refine BitVec.eq_of_toNat_eq ?_
  simp [immRegister]

end Sys2Proof
end

section
/-! PROOFS. The arithmetic group (40_arithmetic.md R131 to R153): each function of the unit as a function of numbers, and one
lemma per shape of instruction that carries such a function to every instruction of that shape. -/

namespace Sys2Proof.Machine

open Sys2Proof.Statements

/-! ### The functions of the unit on numbers -/

/-- The function never fails, and its result is `g` of its arguments modulo 2^16. -/
def ArithFn.Computes (f : ArithFn) (g : Nat → Nat → Nat) : Prop :=
  ∀ a b, f a b = some (BitVec.ofNat 16 (g a.toNat b.toNat))

/-- The function fails for a second argument of 0 only, and else its result is `g` of its arguments. -/
def ArithFn.Divides (f : ArithFn) (g : Nat → Nat → Nat) : Prop :=
  (∀ a, f a 0#16 = none) ∧ ∀ a b, b ≠ 0#16 → f a b = some (BitVec.ofNat 16 (g a.toNat b.toNat))

theorem eq_ofNat_of_toNat_eq {v : Word} {n : Nat} (h : v.toNat = n) : v = BitVec.ofNat 16 n := by
  rw [← h, BitVec.ofNat_toNat, BitVec.setWidth_eq]

/-- A Word given by a number is the one with that number modulo 2^16. -/
theorem eq_ofNat_of_toNat_eq_mod {v : Word} {n : Nat} (h : v.toNat = n % 65536) : v = BitVec.ofNat 16 n :=
  BitVec.eq_of_toNat_eq (h.trans (BitVec.toNat_ofNat n 16).symm)

theorem sub_eq_ofNat (a b : Word) : a - b = BitVec.ofNat 16 (65536 + a.toNat - b.toNat) := by
  have hb : b.toNat < 65536 := b.isLt
  refine eq_ofNat_of_toNat_eq_mod ?_
  rw [BitVec.toNat_sub]
  omega

theorem addFn_computes : addFn.Computes (fun a b => a + b) := fun a b =>
  congrArg some (eq_ofNat_of_toNat_eq_mod (BitVec.toNat_add a b))

theorem subFn_computes : subFn.Computes (fun a b => 65536 + a - b) := fun a b =>
  congrArg some (sub_eq_ofNat a b)

theorem mulFn_computes : mulFn.Computes (fun a b => a * b) := fun a b =>
  congrArg some (eq_ofNat_of_toNat_eq_mod (BitVec.toNat_mul a b))

theorem shlFn_computes : shlFn.Computes (fun a n => if 16 ≤ n then 0 else a * 2 ^ n) := by
  intro a b
  simp only [shlFn, Option.some.injEq]
  by_cases h : 16 ≤ b.toNat
  · rw [if_pos h, if_pos h]
  · rw [if_neg h, if_neg h]
    refine eq_ofNat_of_toNat_eq_mod ?_
    rw [BitVec.toNat_shiftLeft, Nat.shiftLeft_eq]

theorem ushiftRight_eq_ofNat (a : Word) (n : Nat) : a >>> n = BitVec.ofNat 16 (a.toNat / 2 ^ n) := by
  refine eq_ofNat_of_toNat_eq ?_
  rw [BitVec.toNat_ushiftRight, Nat.shiftRight_eq_div_pow]

theorem shrFn_computes : shrFn.Computes (fun a n => if 16 ≤ n then 0 else a / 2 ^ n) := by
  intro a b
  simp only [shrFn, Option.some.injEq]
  by_cases h : 16 ≤ b.toNat
  · rw [if_pos h, if_pos h]
  · rw [if_neg h, if_neg h, ushiftRight_eq_ofNat]

theorem andFn_computes : andFn.Computes Nat.land := fun a b =>
  congrArg some (eq_ofNat_of_toNat_eq (BitVec.toNat_and a b))

theorem orFn_computes : orFn.Computes Nat.lor := fun a b =>
  congrArg some (eq_ofNat_of_toNat_eq (BitVec.toNat_or a b))

theorem xorFn_computes : xorFn.Computes Nat.xor := fun a b =>
  congrArg some (eq_ofNat_of_toNat_eq (BitVec.toNat_xor a b))

theorem notFn_computes : notFn.Computes (fun a _ => 0xFFFF - a) := fun _ _ =>
  congrArg some (eq_ofNat_of_toNat_eq BitVec.toNat_not)

theorem incFn_computes : incFn.Computes (fun a _ => a + 1) := fun a _ =>
  congrArg some (eq_ofNat_of_toNat_eq_mod (BitVec.toNat_add a 1#16))

theorem decFn_computes : decFn.Computes (fun a _ => 65536 + a - 1) := fun a _ =>
  congrArg some (sub_eq_ofNat a 1#16)

theorem doubleFn_computes : doubleFn.Computes (fun a _ => a * 2) := fun a _ =>
  congrArg some (eq_ofNat_of_toNat_eq_mod (BitVec.toNat_mul a 2#16))

theorem halveFn_computes : halveFn.Computes (fun a _ => a / 2) := fun a _ =>
  congrArg some (ushiftRight_eq_ofNat a 1)

theorem divFn_divides : divFn.Divides (fun a b => a / b) :=
  ⟨fun _ => rfl, fun _ _ hb => (if_neg hb).trans (congrArg some BitVec.udiv_def)⟩

theorem remFn_divides : remFn.Divides (fun a b => a % b) :=
  ⟨fun _ => rfl, fun _ _ hb => (if_neg hb).trans (congrArg some BitVec.umod_def)⟩

/-! ### What an arithmetic instruction answers (60_exceptions.md R376 for the order of its errors) -/

theorem arithmetic_of_none {f : ArithFn} {a b : Word} (h : f a b = none) (d : RegIdx) (s : State) :
    arithmetic f d a b s = .raised .divideByZero s := by
  simp only [arithmetic, h]

theorem arithmetic_of_some {f : ArithFn} {a b r : Word} (h : f a b = some r) (d : RegIdx) (s : State) :
    arithmetic f d a b s = writeReg d r s := by
  simp only [arithmetic, h]

section Answers

variable {i : Instr} {f : ArithFn} {d : RegIdx} {a b : Source} {s : State}

theorem exec_of_arithmetic (hi : action i = .arithmetic f d a b) :
    exec i s = (arithmetic f d (a.value s) (b.value s) s).outcome := by
  rw [exec_eq_run, hi, Action.run]

theorem exec_of_none (hi : action i = .arithmetic f d a b) (hf : f (a.value s) (b.value s) = none) :
    exec i s = .next (s.takeError .divideByZero) := by
  rw [exec_of_arithmetic hi, arithmetic_of_none hf, Res.outcome_raised]

/-- A result is refused by a protected destination and else written, with nothing else changed. -/
theorem exec_of_some {r : Word} (hi : action i = .arithmetic f d a b) (hf : f (a.value s) (b.value s) = some r) :
    (d.toNat < 2 → exec i s = .next (s.takeError (.writeProtected d))) ∧
    (2 ≤ d.toNat → exec i s = .next (s.setReg d r)) := by
  rw [exec_of_arithmetic hi, arithmetic_of_some hf]
  constructor
  · intro hd
    rw [writeReg_of_lt hd, Res.outcome_raised]
  · intro hd
    rw [writeReg_of_le hd, Res.outcome_done]

theorem exec_of_divides {g : Nat → Nat → Nat} (hi : action i = .arithmetic f d a b) (hf : f.Divides g) :
    (b.value s = 0#16 → exec i s = .next (s.takeError .divideByZero)) ∧
    (b.value s ≠ 0#16 → d.toNat < 2 → exec i s = .next (s.takeError (.writeProtected d))) ∧
    (b.value s ≠ 0#16 → 2 ≤ d.toNat →
      exec i s = .next (s.setReg d (BitVec.ofNat 16 (g (a.value s).toNat (b.value s).toNat)))) := by
  obtain ⟨hzero, hresult⟩ := hf
  refine ⟨fun h0 => exec_of_none hi ?_, fun hne => (exec_of_some hi (hresult _ _ hne)).1,
    fun hne => (exec_of_some hi (hresult _ _ hne)).2⟩
  rw [h0, hzero]

end Answers

/-! ### The shapes of 40_arithmetic.md R131 -/

theorem arithmeticForm_of_computes {byte0 : Nat} {i : RegIdx → RegIdx → RegIdx → Instr} {f : ArithFn}
    {g : Nat → Nat → Nat} (hdecode : ∀ d s0 s1, decode (wordR byte0 d s0 s1) = .instr (i d s0 s1))
    (haction : ∀ d s0 s1, action (i d s0 s1) = .arithmetic f d (.reg s0) (.reg s1)) (hf : f.Computes g) :
    ArithmeticForm byte0 i g := fun d s0 s1 _ =>
  ⟨hdecode d s0 s1, exec_of_some (haction d s0 s1) (hf _ _)⟩

/-- The 0 of register 0 stands for the second argument, which the function ignores. -/
theorem unaryForm_of_computes {byte0 : Nat} {i : RegIdx → RegIdx → Instr} {f : ArithFn} {g : Nat → Nat}
    (hdecode : ∀ d s0 ignored, decode (wordR byte0 d s0 ignored) = .instr (i d s0))
    (haction : ∀ d s0, action (i d s0) = .arithmetic f d (.reg s0) (.imm 0#16)) (hf : f.Computes (fun a _ => g a)) :
    UnaryForm byte0 i g := fun d s0 ignored _ =>
  ⟨hdecode d s0 ignored, exec_of_some (haction d s0) (hf _ _)⟩

theorem immediateForm_of_computes {byte0 : Nat} {i : RegIdx → Word → Instr} {f : ArithFn} {g : Nat → Nat → Nat}
    (hdecode : ∀ d imm, decode (wordI byte0 d imm) = .instr (i d imm))
    (haction : ∀ d imm, action (i d imm) = .arithmetic f d (.reg (imm.setWidth 8)) (.imm imm)) (hf : f.Computes g) :
    ImmediateForm byte0 i g := by
  intro d imm s
  rw [immRegister_eq_setWidth]
  exact ⟨hdecode d imm, exec_of_some (haction d imm) (hf _ _)⟩

theorem divisionForm_of_divides {byte0 : Nat} {i : RegIdx → RegIdx → RegIdx → Instr} {f : ArithFn}
    {g : Nat → Nat → Nat} (hdecode : ∀ d s0 s1, decode (wordR byte0 d s0 s1) = .instr (i d s0 s1))
    (haction : ∀ d s0 s1, action (i d s0 s1) = .arithmetic f d (.reg s0) (.reg s1)) (hf : f.Divides g) :
    DivisionForm byte0 i g := fun d s0 s1 _ =>
  ⟨hdecode d s0 s1, exec_of_divides (haction d s0 s1) hf⟩

theorem immediateDivisionForm_of_divides {byte0 : Nat} {i : RegIdx → Word → Instr} {f : ArithFn} {g : Nat → Nat → Nat}
    (hdecode : ∀ d imm, decode (wordI byte0 d imm) = .instr (i d imm))
    (haction : ∀ d imm, action (i d imm) = .arithmetic f d (.reg (imm.setWidth 8)) (.imm imm)) (hf : f.Divides g) :
    ImmediateDivisionForm byte0 i g := by
  intro d imm s
  rw [immRegister_eq_setWidth]
  exact ⟨hdecode d imm, exec_of_divides (haction d imm) hf⟩

/-! ### Division -/

theorem divisionForm_div : DivisionForm 0x18 .div (fun a b => a / b) :=
  divisionForm_of_divides (decode_wordR _) (fun _ _ _ => rfl) divFn_divides

theorem divisionForm_rem : DivisionForm 0x20 .rem (fun a b => a % b) :=
  divisionForm_of_divides (decode_wordR _) (fun _ _ _ => rfl) remFn_divides

/-- The number in a register just written with a number no greater than a Word's. -/
theorem toNat_reg_setReg_ofNat {s : State} {d : RegIdx} (hd : 2 ≤ d.toNat) {v : Word} {n : Nat} (h : n ≤ v.toNat) :
    ((s.setReg d (BitVec.ofNat 16 n)).reg d).toNat = n := by
  rw [s.reg_setReg_self ((isWriteProtected_eq_false_iff d).mpr hd), BitVec.toNat_ofNat,
    Nat.mod_eq_of_lt (h.trans_lt v.isLt)]

end Sys2Proof.Machine
end

section
open Sys2Proof Sys2Proof.Machine Sys2Proof.Statements

/-- Settles O23: five functions that never fail, each in the register shape. -/
theorem addSubMulShiftRules : Obligations.AddSubMulShiftRules :=
  ⟨arithmeticForm_of_computes (decode_wordR _) (fun _ _ _ => rfl) addFn_computes,
    arithmeticForm_of_computes (decode_wordR _) (fun _ _ _ => rfl) subFn_computes,
    arithmeticForm_of_computes (decode_wordR _) (fun _ _ _ => rfl) mulFn_computes,
    arithmeticForm_of_computes (decode_wordR _) (fun _ _ _ => rfl) shlFn_computes,
    arithmeticForm_of_computes (decode_wordR _) (fun _ _ _ => rfl) shrFn_computes⟩

/-- Settles O24: the quotient and the remainder are no greater than the dividend, so no reduction modulo 2^16 enters the
division law. -/
theorem divisionRules : Obligations.DivisionRules := by
  refine ⟨divisionForm_div, divisionForm_rem, fun s t u d s0 s1 hd hne hdiv hrem => ?_⟩
  obtain ⟨-, -, -, hquot⟩ := divisionForm_div d s0 s1 s
  obtain ⟨-, -, -, hmod⟩ := divisionForm_rem d s0 s1 s
  cases hdiv.symm.trans (hquot hne hd)
  cases hrem.symm.trans (hmod hne hd)
  rw [toNat_reg_setReg_ofNat hd (Nat.div_le_self _ _), toNat_reg_setReg_ofNat hd (Nat.mod_le _ _)]
  exact Nat.div_add_mod _ _

/-- Settles O25: three functions on bits that never fail, each in the register shape. -/
theorem bitwiseRules : Obligations.BitwiseRules :=
  ⟨arithmeticForm_of_computes (decode_wordR _) (fun _ _ _ => rfl) andFn_computes,
    arithmeticForm_of_computes (decode_wordR _) (fun _ _ _ => rfl) orFn_computes,
    arithmeticForm_of_computes (decode_wordR _) (fun _ _ _ => rfl) xorFn_computes⟩

/-- Settles O26: five functions of the first argument alone, each in the unary shape. -/
theorem unaryRules : Obligations.UnaryRules :=
  ⟨unaryForm_of_computes (decode_wordR _) (fun _ _ => rfl) notFn_computes,
    unaryForm_of_computes (decode_wordR _) (fun _ _ => rfl) incFn_computes,
    unaryForm_of_computes (decode_wordR _) (fun _ _ => rfl) decFn_computes,
    unaryForm_of_computes (decode_wordR _) (fun _ _ => rfl) doubleFn_computes,
    unaryForm_of_computes (decode_wordR _) (fun _ _ => rfl) halveFn_computes⟩

/-- Settles O27: the functions of O23 in the immediate shape. -/
theorem immediateArithmeticRules : Obligations.ImmediateArithmeticRules :=
  ⟨immediateForm_of_computes (fun _ => decode_wordI fun _ _ => rfl) (fun _ _ => rfl) addFn_computes,
    immediateForm_of_computes (fun _ => decode_wordI fun _ _ => rfl) (fun _ _ => rfl) subFn_computes,
    immediateForm_of_computes (fun _ => decode_wordI fun _ _ => rfl) (fun _ _ => rfl) mulFn_computes,
    immediateForm_of_computes (fun _ => decode_wordI fun _ _ => rfl) (fun _ _ => rfl) shlFn_computes,
    immediateForm_of_computes (fun _ => decode_wordI fun _ _ => rfl) (fun _ _ => rfl) shrFn_computes⟩

/-- Settles O28: the functions of O24 in the immediate shape. -/
theorem immediateDivisionRules : Obligations.ImmediateDivisionRules :=
  ⟨immediateDivisionForm_of_divides (fun _ => decode_wordI fun _ _ => rfl) (fun _ _ => rfl) divFn_divides,
    immediateDivisionForm_of_divides (fun _ => decode_wordI fun _ _ => rfl) (fun _ _ => rfl) remFn_divides⟩

end

section
/-! PROOFS. The move group (41_move.md R168 to R186): what an access to the data space does to the rest of an instruction, the
two shapes of the group, copies and exchanges, and the stack instructions. -/

namespace Sys2Proof.Machine

open Sys2Proof.Statements

/-! ### A copy or an exchange in which nothing changes -/

theorem lowByte_append (high low : Byte) : lowByte (high ++ low) = low := by
  refine BitVec.eq_of_toNat_eq ?_
  rw [toNat_lowByte, toNat_append_eq_add]
  omega

theorem highByte_append (high low : Byte) : highByte (high ++ low) = high := by
  refine BitVec.eq_of_toNat_eq ?_
  rw [toNat_highByte, toNat_append_eq_add]
  omega

/-- A cell written with the value it already has leaves every byte. -/
theorem Memory.readByte_writeWord_of_eq {m : Memory} {a : Nat} {v : Word} (h : v = m.readWord a) (n : Nat) :
    (m.writeWord a v).readByte n = m.readByte n := by
  subst h
  by_cases hlow : n = 2 * a
  · rw [hlow, Memory.readByte_writeWord_low, Memory.readWord, lowByte_append]
  by_cases hhigh : n = 2 * a + 1
  · rw [hhigh, Memory.readByte_writeWord_high, Memory.readWord, highByte_append]
  · exact Memory.readByte_writeWord_of_ne hlow hhigh m _

theorem State.setReg_reg_of_le (s : State) {i : RegIdx} (h : 2 ≤ i.toNat) : s.setReg i (s.reg i) = s :=
  s.setReg_reg ((isWriteProtected_eq_false_iff i).mpr h)

/-! ### The write-protection check before the rest of an instruction (41_move.md R169 step 1) -/

theorem outcome_checkWritable_of_lt {d : RegIdx} (hd : d.toNat < 2) (s : State) (f : Unit → State → Res Unit) :
    ((checkWritable d s).andThen f).outcome = .next (s.takeError (.writeProtected d)) := by
  rw [checkWritable_of_lt hd, Res.andThen_raised, Res.outcome_raised]

theorem outcome_checkWritable_of_le {d : RegIdx} (hd : 2 ≤ d.toNat) (s : State) (f : Unit → State → Res Unit) :
    ((checkWritable d s).andThen f).outcome = (f () s).outcome := by
  rw [checkWritable_of_le hd, Res.andThen_done]

/-! ### An access to the data space before the rest of an instruction (20_memory.md R70 to R72) -/

section Access

variable {a v : Word} {s : State} {o : Result}

/-- The result of an instruction is that of a read, and then of `f`: enough for `ReadsThen` is what `f` does where the read
completes. -/
theorem readsThen_of_memRead {f : Word → State → Res Unit} {k : Word → State → Prop}
    (ho : o = ((memRead a s).andThen f).outcome)
    (hk : ∀ w t, memRead a s = .done w t → o = (f w t).outcome → k w t) : ReadsThen a s o k := by
  have hdone : ∀ w t, memRead a s = .done w t → k w t := fun w t h => hk w t h (by rw [ho, h, Res.andThen_done])
  have hraised : ∀ e t, memRead a s = .raised e t → o = .next (t.takeError e) := fun e t h => by
    rw [ho, h, Res.andThen_raised, Res.outcome_raised]
  refine ⟨fun h => hdone _ _ (memRead_of_ram h),
    fun ha hl => hraised _ _ (memRead_of_unmapped (route_of_unmapped ha hl)), fun dev ha hl => ?_⟩
  have hdevice : memRead a s = callDevice dev (.load a) s := memRead_of_device (route_of_device ha hl)
  exact ⟨fun w h => hdone _ _ (hdevice.trans (callDevice_of_ok h)),
    fun e h => hraised _ _ (hdevice.trans (callDevice_of_error h))⟩

/-- The result of an instruction is that of a write, and then of `f`. -/
theorem writesThen_of_memWrite {f : Unit → State → Res Unit} {k : State → Prop}
    (ho : o = ((memWrite a v s).andThen f).outcome) (hk : ∀ t, o = (f () t).outcome → k t) : WritesThen a v s o k := by
  have hdone : ∀ t, memWrite a v s = .done () t → k t := fun t h => hk t (by rw [ho, h, Res.andThen_done])
  have hraised : ∀ e t, memWrite a v s = .raised e t → o = .next (t.takeError e) := fun e t h => by
    rw [ho, h, Res.andThen_raised, Res.outcome_raised]
  refine ⟨fun h => hdone _ (memWrite_of_ram h v),
    fun ha hl => hraised _ _ (memWrite_of_unmapped (route_of_unmapped ha hl) v), fun dev ha hl => ?_⟩
  have hdevice := memWrite_of_device (route_of_device ha hl) v
  refine ⟨fun w h => hdone _ ?_, fun e h => hraised _ _ ?_⟩
  · rw [hdevice, callDevice_of_ok h, Res.andThen_done]
  · rw [hdevice, callDevice_of_error h, Res.andThen_raised, accessAddress]

theorem readsThen_ram {k : Word → State → Prop} (h : ReadsThen a s o k) (ha : a.toNat < s.config.dataSize) :
    k (s.data.readWord a.toNat) s :=
  h.1 ha

theorem writesThen_ram {k : State → Prop} (h : WritesThen a v s o k) (ha : a.toNat < s.config.dataSize) :
    k (s.setMem .data (s.data.writeWord a.toNat v)) :=
  h.1 ha

theorem probesThen_ram {k : Prop} (h : ProbesThen a s o k) (ha : a.toNat < s.config.dataSize) : k :=
  h.2 (.inl ha)

/-- A write with which the instruction ends. -/
theorem writesThen_of_last_memWrite (ho : o = (memWrite a v s).outcome) : WritesThen a v s o fun t => o = .next t := by
  refine writesThen_of_memWrite (f := fun _ t => .done () t) (ho.trans ?_) fun t ht => ht
  cases memWrite a v s <;> rfl

theorem route_ne_unmapped_of_mapped (h : Mapped a s) : route s a ≠ .unmapped := by
  rcases route_cases s a with ⟨_, hr⟩ | ⟨_, dev, _, hr⟩ | ⟨ha, hl, _⟩
  · rw [hr]; nofun
  · rw [hr]; nofun
  · exact absurd hl (h.resolve_left (Nat.not_lt.mpr ha))

theorem route_of_not_mapped (h : ¬Mapped a s) : route s a = .unmapped := by
  obtain ⟨hram, hl⟩ := not_or.mp h
  exact route_of_unmapped (Nat.not_lt.mp hram) (not_not.mp hl)

/-- The result of an instruction is that of a probe, and then of `f` in the same state. -/
theorem probesThen_of_memProbe {f : Unit → State → Res Unit} {k : Prop}
    (ho : o = ((memProbe a s).andThen f).outcome) (hk : o = (f () s).outcome → k) : ProbesThen a s o k := by
  refine ⟨fun h => ?_, fun h => hk ?_⟩
  · rw [ho, memProbe_of_unmapped (route_of_not_mapped h), Res.andThen_raised, Res.outcome_raised]
  · rw [ho, memProbe_of_mapped (route_ne_unmapped_of_mapped h), Res.andThen_done]

end Access

/-! ### The shapes of the group: copies -/

section Copy

variable {i : Instr} {d : RegIdx} {src : Operand} {a v : Word} {s : State}

theorem exec_copy {dst : Place} (hi : action i = .copy dst src) : exec i s = (copyInto dst src s).outcome := by
  rw [exec_eq_run, hi, Action.run]

theorem exec_copy_reg_of_lt (hi : action i = .copy (.reg d) src) (hd : d.toNat < 2) :
    exec i s = .next (s.takeError (.writeProtected d)) := by
  rw [exec_copy hi, copyInto, admitPlace, outcome_checkWritable_of_lt hd]

/-- Past the check of the destination, the register write cannot fail. -/
theorem exec_copy_reg_of_le (hi : action i = .copy (.reg d) src) (hd : 2 ≤ d.toNat) :
    exec i s = ((readOperand src s).andThen fun w t => .done () (t.setReg d w)).outcome := by
  rw [exec_copy hi, copyInto, admitPlace, outcome_checkWritable_of_le hd]
  simp only [writePlace, writeReg_of_le hd]

/-- A copy into a register from an operand that is read without an access. -/
theorem exec_copy_reg (hi : action i = .copy (.reg d) src) (hsrc : readOperand src s = .done v s) :
    (d.toNat < 2 → exec i s = .next (s.takeError (.writeProtected d))) ∧
    (2 ≤ d.toNat → exec i s = .next (s.setReg d v)) := by
  refine ⟨exec_copy_reg_of_lt hi, fun hd => ?_⟩
  rw [exec_copy_reg_of_le hi hd, hsrc, Res.andThen_done, Res.outcome_done]

theorem loadsFrom_of_copy (hi : action i = .copy (.reg d) src) (hsrc : readOperand src s = memRead a s) :
    LoadsFrom d a s (exec i s) := by
  have hreads : 2 ≤ d.toNat → ReadsThen a s (exec i s) fun w t => exec i s = .next (t.setReg d w) := by
    intro hd
    have hexec := exec_copy_reg_of_le (s := s) hi hd
    rw [hsrc] at hexec
    exact readsThen_of_memRead hexec fun _ _ _ hread => hread
  exact ⟨exec_copy_reg_of_lt hi, fun hd => readsThen_ram (hreads hd), hreads⟩

/-- Where the source is read without an access, the probe before the write refuses what the write would refuse. -/
theorem exec_copy_memByReg (hi : action i = .copy (.memByReg d) src) (hsrc : readOperand src s = .done v s) :
    exec i s = (memWrite (s.reg d) v s).outcome := by
  rw [exec_copy hi, copyInto, admitPlace]
  rcases memProbe_cases (s.reg d) s with ⟨hr, hp⟩ | ⟨_, hp⟩
  · rw [hp, Res.andThen_raised, memWrite_of_unmapped hr]
  · rw [hp, Res.andThen_done, hsrc, Res.andThen_done, writePlace]

theorem storesTo_of_copy (hi : action i = .copy (.memByReg d) src) (hsrc : readOperand src s = .done v s) :
    StoresTo (s.reg d) v s (exec i s) := by
  have hwrites := writesThen_of_last_memWrite (exec_copy_memByReg hi hsrc)
  exact ⟨writesThen_ram hwrites, hwrites⟩

/-- A read leaves the registers, so the cell written is the one probed. -/
theorem copiesFrom_of_copy (hi : action i = .copy (.memByReg d) src) (hsrc : readOperand src s = memRead a s) :
    CopiesFrom (s.reg d) a s (exec i s) := by
  have hcopies : ProbesThen (s.reg d) s (exec i s) (ReadsThen a s (exec i s) fun w t =>
      WritesThen (s.reg d) w t (exec i s) fun u => exec i s = .next u) := by
    refine probesThen_of_memProbe (exec_copy hi) fun hprobed => ?_
    refine readsThen_of_memRead (hsrc ▸ hprobed) fun w t hread hrest => ?_
    refine writesThen_of_last_memWrite ?_
    rw [hrest, writePlace, memRead_done_reg hread]
  exact ⟨fun ha hb => writesThen_ram (readsThen_ram (probesThen_ram hcopies ha) hb) ha, hcopies⟩

end Copy

/-! ### The shapes of the group: exchanges -/

section Exchange

variable {i : Instr} {d s0 : RegIdx} {cell : Source} {s : State}

theorem exec_swap_of_le (hd : 2 ≤ d.toNat) (h0 : 2 ≤ s0.toNat) :
    exec (.swap d s0) s = .next ((s.setReg d (s.reg s0)).setReg s0 (s.reg d)) := by
  rw [exec_eq_run, action, Action.run, swapRegisters, outcome_checkWritable_of_le hd, outcome_checkWritable_of_le h0,
    writeReg_of_le hd, Res.andThen_done, writeReg_of_le h0, Res.outcome_done]

/-- Both registers are checked before either is written, `d` first. -/
theorem exec_swap_of_protected_source (hd : 2 ≤ d.toNat) (h0 : s0.toNat < 2) :
    exec (.swap d s0) s = .next (s.takeError (.writeProtected s0)) := by
  rw [exec_eq_run, action, Action.run, swapRegisters, outcome_checkWritable_of_le hd, outcome_checkWritable_of_lt h0]

theorem exec_swapRegisterCell (hi : action i = .swapRegisterCell d cell) :
    exec i s = (swapRegisterCell d (cell.value s) s).outcome := by
  rw [exec_eq_run, hi, Action.run]

theorem swapsRegister_of_action (hi : action i = .swapRegisterCell d cell) :
    SwapsRegister d (cell.value s) s (exec i s) := by
  have hswaps : 2 ≤ d.toNat → ReadsThen (cell.value s) s (exec i s) fun m t =>
      WritesThen (cell.value s) (s.reg d) t (exec i s) fun u => exec i s = .next (u.setReg d m) := by
    intro hd
    have hexec := exec_swapRegisterCell (s := s) hi
    rw [swapRegisterCell, outcome_checkWritable_of_le hd] at hexec
    refine readsThen_of_memRead hexec fun m t _ hread => writesThen_of_memWrite hread fun u hwritten => ?_
    rw [hwritten, writeReg_of_le hd, Res.outcome_done]
  refine ⟨fun hd => ?_, fun hd ha => writesThen_ram (readsThen_ram (hswaps hd) ha) ha, hswaps⟩
  rw [exec_swapRegisterCell hi, swapRegisterCell, outcome_checkWritable_of_lt hd]

theorem exec_swapCells (hi : action i = .swapCells d cell) :
    exec i s = (swapCells (s.reg d) (cell.value s) s).outcome := by
  rw [exec_eq_run, hi, Action.run]

/-- A RAM cell exchanged with itself is written twice with the value it has. -/
theorem byteAt_swap_self (s : State) (a : Nat) (seg : Segment) (n : Nat) :
    (s.setMem .data ((s.data.writeWord a (s.data.readWord a)).writeWord a (s.data.readWord a))).byteAt seg n =
      s.byteAt seg n := by
  by_cases hseg : seg = .data
  · have hkept : s.data.readWord a = (s.data.writeWord a (s.data.readWord a)).readWord a := by
      rw [Memory.readWord_writeWord_self]
    rw [hseg, State.byteAt_setMem_self, Memory.readByte_writeWord_of_eq hkept, Memory.readByte_writeWord_of_eq rfl,
      State.byteAt, State.mem_data]
  · exact s.byteAt_setMem_of_ne hseg _ n

theorem swapsCells_of_action (hi : action i = .swapCells d cell) :
    SwapsCells (s.reg d) (cell.value s) s (exec i s) := by
  have hswaps : ProbesThen (s.reg d) s (exec i s) (ProbesThen (cell.value s) s (exec i s)
      (ReadsThen (s.reg d) s (exec i s) fun m1 t1 => ReadsThen (cell.value s) t1 (exec i s) fun m2 t2 =>
        WritesThen (s.reg d) m2 t2 (exec i s) fun t3 => WritesThen (cell.value s) m1 t3 (exec i s) fun t4 =>
          exec i s = .next t4)) :=
    probesThen_of_memProbe (exec_swapCells hi) fun hprobed1 => probesThen_of_memProbe hprobed1 fun hprobed2 =>
      readsThen_of_memRead hprobed2 fun _ _ _ hread1 => readsThen_of_memRead hread1 fun _ _ _ hread2 =>
        writesThen_of_memWrite hread2 fun _ hwritten => writesThen_of_last_memWrite hwritten
  have hram : (s.reg d).toNat < s.config.dataSize → (cell.value s).toNat < s.config.dataSize →
      exec i s = .next (s.setMem .data ((s.data.writeWord (s.reg d).toNat (s.data.readWord (cell.value s).toNat)).writeWord
        (cell.value s).toNat (s.data.readWord (s.reg d).toNat))) := fun h1 h2 =>
    have hprobed := probesThen_ram (probesThen_ram hswaps h1) h2
    have hread := readsThen_ram (readsThen_ram hprobed h1) h2
    writesThen_ram (writesThen_ram hread h1) h2
  refine ⟨hram, fun heq h1 => ⟨_, hram h1 (heq ▸ h1), fun seg n => ?_⟩, hswaps⟩
  rw [← heq]
  exact byteAt_swap_self s _ seg n

end Exchange

/-! ### The stack instructions -/

section Stack

variable {d : RegIdx} {s : State}

theorem pushesData_of_action {i : Instr} {v : Source} (hi : action i = .push v) :
    PushesData (v.value s) s (exec i s) := by
  have hexec : exec i s = (push .dataStack (v.value s) s).outcome := by rw [exec_eq_run, hi, Action.run]
  rw [hexec]
  exact ⟨fun h => congrArg Res.outcome (push_of_le (k := .dataStack) h _),
    fun h => congrArg Res.outcome (push_of_lt (k := .dataStack) h _)⟩

/-- `pop` and `peek` are one instruction over two loads from the top of the stack. -/
def stackLoad (load : State → Res Word) (d : RegIdx) (s : State) : Result :=
  ((checkWritable d s).andThen fun _ s1 => (load s1).andThen fun v s2 => writeReg d v s2).outcome

theorem exec_pop (d : RegIdx) (s : State) : exec (.pop d) s = stackLoad (pop .dataStack) d s := rfl

theorem exec_peek (d : RegIdx) (s : State) : exec (.peek d) s = stackLoad (peek .dataStack) d s := rfl

theorem stackLoad_of_lt (load : State → Res Word) (hd : d.toNat < 2) :
    stackLoad load d s = .next (s.takeError (.writeProtected d)) :=
  outcome_checkWritable_of_lt hd s _

theorem stackLoad_of_raised {load : State → Res Word} {e : Error} (hd : 2 ≤ d.toNat) (h : load s = .raised e s) :
    stackLoad load d s = .next (s.takeError e) := by
  rw [stackLoad, outcome_checkWritable_of_le hd, h, Res.andThen_raised, Res.outcome_raised]

/-- The register is written last, so it ends with the loaded value even where the load moved it. -/
theorem stackLoad_of_done {load : State → Res Word} {v : Word} {t : State} (hd : 2 ≤ d.toNat) (h : load s = .done v t) :
    stackLoad load d s = .next (t.setReg d v) := by
  rw [stackLoad, outcome_checkWritable_of_le hd, h, Res.andThen_done, writeReg_of_le hd, Res.outcome_done]

end Stack

end Sys2Proof.Machine
end

section
open Sys2Proof Sys2Proof.Machine Sys2Proof.Statements

/-- Settles O38: `move` and `set` are copies into a register, `swap` checks both registers before it writes; a register written
with its own value is the same state. -/
theorem registerMoveRules : Obligations.RegisterMoveRules := by
  intro d s0 x imm s
  obtain ⟨hmoveProtected, hmove⟩ := exec_copy_reg (i := .move d s0) (s := s) rfl rfl
  obtain ⟨hsetProtected, hset⟩ := exec_copy_reg (i := .set d imm) (s := s) rfl rfl
  refine ⟨⟨decode_wordR _ d s0 x, hmoveProtected, hmove, fun hd heq => ?_⟩,
    ⟨decode_wordR _ d s0 x, fun hd => ?_, exec_swap_of_protected_source, exec_swap_of_le, fun hd heq => ?_⟩,
    decode_wordI (fun _ _ => rfl) imm, hsetProtected, hset⟩
  · rw [hmove hd, ← heq, s.setReg_reg_of_le hd]
  · exact outcome_checkWritable_of_lt hd s _
  · subst heq
    rw [exec_swap_of_le hd hd, State.setReg_setReg, s.setReg_reg_of_le hd]

/-- Settles O39: both loads are copies into a register from a data cell. -/
theorem loadRules : Obligations.LoadRules := fun d s0 x imm _ =>
  ⟨⟨decode_wordR _ d s0 x, loadsFrom_of_copy rfl rfl⟩, decode_wordI (fun _ _ => rfl) imm, loadsFrom_of_copy rfl rfl⟩

/-- Settles O40: both stores are copies into a data cell from an operand that is read without an access. -/
theorem storeRules : Obligations.StoreRules := fun d s0 x imm _ =>
  ⟨⟨decode_wordR _ d s0 x, storesTo_of_copy rfl rfl⟩, decode_wordI (fun _ _ => rfl) imm, storesTo_of_copy rfl rfl⟩

/-- Settles O41: both copies are copies from a data cell into a data cell. -/
theorem memoryCopyRules : Obligations.MemoryCopyRules := fun d s0 x imm _ =>
  ⟨⟨decode_wordR _ d s0 x, copiesFrom_of_copy rfl rfl⟩, decode_wordI (fun _ _ => rfl) imm, copiesFrom_of_copy rfl rfl⟩

/-- Settles O42: both swaps exchange a register with a cell, whose address is a register or the immediate. -/
theorem registerCellSwapRules : Obligations.RegisterCellSwapRules := fun d s0 x imm _ =>
  ⟨⟨decode_wordR _ d s0 x, swapsRegister_of_action (cell := .reg s0) rfl⟩, decode_wordI (fun _ _ => rfl) imm,
    swapsRegister_of_action (cell := .imm imm) rfl⟩

/-- Settles O43: both swaps exchange two cells, the second at the address of a register or at the immediate. -/
theorem cellSwapRules : Obligations.CellSwapRules := fun d s0 x imm _ =>
  ⟨⟨decode_wordR _ d s0 x, swapsCells_of_action (cell := .reg s0) rfl⟩, decode_wordI (fun _ _ => rfl) imm,
    swapsCells_of_action (cell := .imm imm) rfl⟩

/-- Settles O45: both pushes push a value read before `sp` moves. -/
theorem pushRules : Obligations.PushRules := fun s0 x y imm _ =>
  ⟨⟨decode_wordR _ x s0 y, pushesData_of_action (v := .reg s0) rfl⟩, decode_wordI (fun _ _ => rfl) imm,
    pushesData_of_action (v := .imm imm) rfl⟩

/-- Settles O46: both instructions load from the top of the stack and write the register last. -/
theorem popPeekRules : Obligations.PopPeekRules := by
  intro d x y s
  rw [exec_pop, exec_peek]
  exact ⟨decode_wordR _ d x y, decode_wordR _ d x y, fun hd => ⟨stackLoad_of_lt _ hd, stackLoad_of_lt _ hd⟩,
    fun hd h => ⟨stackLoad_of_raised hd (pop_of_le h), stackLoad_of_raised hd (peek_of_le h)⟩,
    fun hd h => ⟨stackLoad_of_done hd (pop_of_lt h), stackLoad_of_done hd (peek_of_lt h)⟩⟩

end

section
/-! PROOFS. The compare group (42_compare.md R200 to R227): the relations and combinators of the unit as those the rules write
down, what a compare answers, and the laws over two compares. -/

namespace Sys2Proof.Machine

open Sys2Proof.Statements

/-! ### The predicate register, and truth as a Word (10_state.md R33; 00_scope.md R8) -/

theorem boolOf_eq_decide (v : Word) : boolOf v = decide (v ≠ 0#16) := by
  rw [Bool.eq_iff_iff, boolOf, bne_iff_ne, decide_eq_true_iff]

@[simp] theorem boolOf_wordOf (b : Bool) : boolOf (wordOf b) = b := by
  cases b <;> rfl

theorem wordOf_eq_one_iff (b : Bool) : wordOf b = 1#16 ↔ b = true := by
  cases b <;> decide

theorem toNat_wordOf (b : Bool) : (wordOf b).toNat = b.toNat := by
  cases b <;> rfl

@[simp] theorem State.reg_pred_setReg_pred (s : State) (v : Word) : (s.setReg predIdx v).reg predIdx = v :=
  s.reg_setReg_self (by decide) v

/-! ### The relations on numbers (42_compare.md R201) -/

/-- The relation of two Words is `g` of them as unsigned numbers. -/
def Compares (p : Word → Word → Bool) (g : Nat → Nat → Bool) : Prop :=
  ∀ a b, p a b = g a.toNat b.toNat

theorem predEq_compares : Compares predEq (fun a b => decide (a = b)) := by
  intro a b
  rw [Bool.eq_iff_iff, predEq, beq_iff_eq, decide_eq_true_iff, BitVec.toNat_inj]

theorem predNeq_compares : Compares predNeq (fun a b => decide (a ≠ b)) := by
  intro a b
  rw [Bool.eq_iff_iff, predNeq, bne_iff_ne, decide_eq_true_iff, Ne, Ne, BitVec.toNat_inj]

theorem predLt_compares : Compares predLt (fun a b => decide (a < b)) := fun _ _ => rfl

theorem predGt_compares : Compares predGt (fun a b => decide (b < a)) := fun _ _ => rfl

theorem predLe_compares : Compares predLe (fun a b => decide (a ≤ b)) := fun _ _ => rfl

theorem predGe_compares : Compares predGe (fun a b => decide (b ≤ a)) := fun _ _ => rfl

theorem predNeq_eq_not_predEq (a b : Word) : predNeq a b = !predEq a b := rfl

theorem predGe_eq_not_predLt (a b : Word) : predGe a b = !predLt a b := by
  rw [predGe_compares, predLt_compares, ← decide_not, decide_eq_decide, Nat.not_lt]

theorem predLe_eq_not_predGt (a b : Word) : predLe a b = !predGt a b := predGe_eq_not_predLt b a

theorem predEq_self (v : Word) : predEq v v = true := beq_self_eq_true v

theorem predNeq_self (v : Word) : predNeq v v = false := bne_self_eq_false v

theorem predLt_self (v : Word) : predLt v v = false := decide_eq_false (Nat.lt_irrefl _)

theorem predGt_self (v : Word) : predGt v v = false := predLt_self v

theorem predLe_self (v : Word) : predLe v v = true := decide_eq_true (Nat.le_refl _)

theorem predGe_self (v : Word) : predGe v v = true := predLe_self v

/-! ### What a compare answers (42_compare.md R200) -/

theorem combineXor_eq_xorRule : combineXor = xorRule := by
  funext old new
  cases old <;> cases new <;> rfl

section Answers

variable {i j : Instr} {p q : Word → Word → Bool} {c : Bool → Bool → Bool} {a b a' b' : RegIdx} {s : State}

theorem exec_of_compare (hi : action i = .compare p c a b) :
    exec i s = .next (s.setReg predIdx (wordOf (c (boolOf s.pred) (p (s.reg a) (s.reg b))))) := by
  rw [exec_eq_run, hi, Action.run, compareWith, Res.outcome_done, comparePred]

/-- A plain compare overwrites `pred` with its relation, whatever `pred` was. -/
theorem exec_of_plainCompare (hi : action i = .compare p combineOverwrite a b) :
    exec i s = .next (s.setReg predIdx (wordOf (p (s.reg a) (s.reg b)))) :=
  exec_of_compare hi

/-- What a register compared with itself leaves in `pred` does not depend on its value. -/
theorem exec_of_selfCompare {r : Bool} (hi : action i = .compare p combineOverwrite a a) (h : ∀ v, p v v = r) :
    exec i s = .next (s.setReg predIdx (wordOf r)) := by
  rw [exec_of_plainCompare hi, h]

/-- Two compares of one result answer the same state, whatever their operands are. -/
theorem exec_eq_of_plainCompare (hi : action i = .compare p combineOverwrite a b)
    (hj : action j = .compare q combineOverwrite a' b') (h : p (s.reg a) (s.reg b) = q (s.reg a') (s.reg b')) :
    exec i s = exec j s := by
  rw [exec_of_plainCompare hi, exec_of_plainCompare hj, h]

/-- Of two compares with complementary relations exactly one sets `pred`. -/
theorem exec_complement (hi : action i = .compare p combineOverwrite a b)
    (hj : action j = .compare q combineOverwrite a b) (h : ∀ x y, q x y = !p x y) :
    ∃ t u, exec i s = .next t ∧ exec j s = .next u ∧ (t.reg predIdx).toNat + (u.reg predIdx).toNat = 1 := by
  refine ⟨_, _, exec_of_plainCompare hi, exec_of_plainCompare hj, ?_⟩
  rw [State.reg_pred_setReg_pred, State.reg_pred_setReg_pred, h, toNat_wordOf, toNat_wordOf]
  cases p (s.reg a) (s.reg b) <;> rfl

/-- A compare with `.and` after a plain one leaves the conjunction of both relations in `pred`, as long as it does not read
`pred` as an operand. -/
theorem exec_conjunction (hi : action i = .compare p combineOverwrite a b) (hj : action j = .compare q combineAnd a' b')
    (ha : a' ≠ predIdx) (hb : b' ≠ predIdx) :
    ∃ t u, exec i s = .next t ∧ exec j t = .next u ∧
      u.reg predIdx = wordOf (p (s.reg a) (s.reg b) && q (s.reg a') (s.reg b')) := by
  refine ⟨_, _, exec_of_plainCompare hi, exec_of_compare hj, ?_⟩
  rw [State.reg_pred_setReg_pred, State.pred, State.reg_pred_setReg_pred, boolOf_wordOf, s.reg_setReg_of_ne ha,
    s.reg_setReg_of_ne hb, combineAnd]

end Answers

/-! ### The shape of 42_compare.md R200 -/

/-- The opcode map reads a format R record with byte 0 `byte0` as the instruction `i`, whatever its byte 1 is, and `i` is the
compare of `p` and `c`. -/
def EncodesCompare (byte0 : Nat) (i : RegIdx → RegIdx → Instr) (p : Word → Word → Bool) (c : Bool → Bool → Bool) : Prop :=
  ∀ ignored s0 s1,
    select (recordR (BitVec.ofNat 3 byte0) (BitVec.ofNat 5 (byte0 / 8)) ignored s0 s1) = .instr (i s0 s1) ∧
    action (i s0 s1) = .compare p c s0 s1

theorem compareForm_of_compares {byte0 : Nat} {i : RegIdx → RegIdx → Instr} {p : Word → Word → Bool}
    {g : Nat → Nat → Bool} {c : Bool → Bool → Bool} (hi : EncodesCompare byte0 i p c) (hp : Compares p g) :
    CompareForm byte0 i g c := by
  intro ignored s0 s1 s
  obtain ⟨hselect, haction⟩ := hi ignored s0 s1
  refine ⟨(decode_wordR byte0 ignored s0 s1).trans hselect, ?_⟩
  rw [exec_of_compare haction, boolOf_eq_decide, hp]
  rfl

/-- The four compares of one relation, one for each combinator. -/
theorem compareForms_of_compares {op : Nat} {plain withAnd withOr withXor : RegIdx → RegIdx → Instr}
    {p : Word → Word → Bool} {g : Nat → Nat → Bool} (hplain : EncodesCompare (8 * op + 2) plain p combineOverwrite)
    (hand : EncodesCompare (8 * (op + 1) + 2) withAnd p combineAnd)
    (hor : EncodesCompare (8 * (op + 2) + 2) withOr p combineOr)
    (hxor : EncodesCompare (8 * (op + 3) + 2) withXor p combineXor) (hp : Compares p g) :
    CompareForms op plain withAnd withOr withXor g :=
  ⟨compareForm_of_compares hplain hp, compareForm_of_compares hand hp, compareForm_of_compares hor hp,
    combineXor_eq_xorRule ▸ compareForm_of_compares hxor hp⟩

end Sys2Proof.Machine
end

section
open Sys2Proof Sys2Proof.Machine Sys2Proof.Statements

/-- Settles O29: two relations that ask whether the Words are the same, each in the four compare shapes. -/
theorem equalityCompareRules : Obligations.EqualityCompareRules :=
  ⟨compareForms_of_compares (fun _ _ _ => ⟨rfl, rfl⟩) (fun _ _ _ => ⟨rfl, rfl⟩)
      (fun _ _ _ => ⟨rfl, rfl⟩) (fun _ _ _ => ⟨rfl, rfl⟩) predEq_compares,
    compareForms_of_compares (fun _ _ _ => ⟨rfl, rfl⟩) (fun _ _ _ => ⟨rfl, rfl⟩)
      (fun _ _ _ => ⟨rfl, rfl⟩) (fun _ _ _ => ⟨rfl, rfl⟩) predNeq_compares⟩

/-- Settles O30: the two strict unsigned orders, each in the four compare shapes. -/
theorem strictCompareRules : Obligations.StrictCompareRules :=
  ⟨compareForms_of_compares (fun _ _ _ => ⟨rfl, rfl⟩) (fun _ _ _ => ⟨rfl, rfl⟩)
      (fun _ _ _ => ⟨rfl, rfl⟩) (fun _ _ _ => ⟨rfl, rfl⟩) predLt_compares,
    compareForms_of_compares (fun _ _ _ => ⟨rfl, rfl⟩) (fun _ _ _ => ⟨rfl, rfl⟩)
      (fun _ _ _ => ⟨rfl, rfl⟩) (fun _ _ _ => ⟨rfl, rfl⟩) predGt_compares⟩

/-- Settles O31: the two weak unsigned orders, each in the four compare shapes. -/
theorem weakCompareRules : Obligations.WeakCompareRules :=
  ⟨compareForms_of_compares (fun _ _ _ => ⟨rfl, rfl⟩) (fun _ _ _ => ⟨rfl, rfl⟩)
      (fun _ _ _ => ⟨rfl, rfl⟩) (fun _ _ _ => ⟨rfl, rfl⟩) predLe_compares,
    compareForms_of_compares (fun _ _ _ => ⟨rfl, rfl⟩) (fun _ _ _ => ⟨rfl, rfl⟩)
      (fun _ _ _ => ⟨rfl, rfl⟩) (fun _ _ _ => ⟨rfl, rfl⟩) predGe_compares⟩

/-- Settles O32: the complements and the exchanges come from the relations, and the conjunction from reading back the `pred`
that the first compare has written. -/
theorem compareLaws : Obligations.CompareLaws := by
  intro a b c e s
  refine ⟨exec_complement rfl rfl predNeq_eq_not_predEq, exec_complement rfl rfl predGe_eq_not_predLt,
    exec_complement rfl rfl predLe_eq_not_predGt, exec_eq_of_plainCompare rfl rfl rfl, exec_eq_of_plainCompare rfl rfl rfl,
    fun hc he => ?_, exec_of_selfCompare rfl predEq_self, exec_of_selfCompare rfl predLe_self,
    exec_of_selfCompare rfl predGe_self, exec_of_selfCompare rfl predNeq_self, exec_of_selfCompare rfl predLt_self,
    exec_of_selfCompare rfl predGt_self⟩
  obtain ⟨t, u, ht, hu, hpred⟩ := exec_conjunction (i := .lt a b) (j := .eqAnd c e) (s := s) rfl rfl hc he
  refine ⟨t, u, ht, hu, ?_, ?_⟩
  · calc u.reg 10#8 = 1#16
      _ ↔ (predLt (s.reg a) (s.reg b) && predEq (s.reg c) (s.reg e)) = true := hpred ▸ wordOf_eq_one_iff _
      _ ↔ (s.reg a).toNat < (s.reg b).toNat ∧ s.reg c = s.reg e := by
        rw [Bool.and_eq_true, predLt_compares, decide_eq_true_iff, predEq, beq_iff_eq]
  · calc (u.reg 10#8).toNat
      _ = (predLt (s.reg a) (s.reg b) && predEq (s.reg c) (s.reg e)).toNat := hpred ▸ toNat_wordOf _
      _ ≤ 1 := Bool.toNat_le _

end

section
/-! PROOFS. The jump group (43_jump.md R240 to R262): what a branch answers with and without the push, the instructions that
are such a branch, `ret`, and the two steps of a call and its return. -/

namespace Sys2Proof.Machine

open Sys2Proof.Statements

/-! ### The branch primitives (43_jump.md R240, R241) -/

theorem nextAddress_eq_afterIp (s : State) : s.nextAddress = afterIp s :=
  eq_ofNat_of_toNat_eq_mod (BitVec.toNat_add s.ip 1#16)

theorem outcome_branch_jump (target : Word) (s : State) : (branch target false s).outcome = .next (jumped target s) := rfl

theorem callsTo_branch (target : Word) (s : State) : CallsTo target s (branch target true s).outcome := by
  rw [branch, if_pos rfl, nextAddress_eq_afterIp]
  refine ⟨fun h => ?_, fun h => ?_⟩
  · rw [push_of_le (k := .callStack) h, Res.andThen_raised, Res.outcome_raised]
    rfl
  · rw [push_of_lt (k := .callStack) h, Res.andThen_done, Res.outcome_done]
    rfl

theorem conditional_of_taken (target : Word) (isCall : Bool) (s : State) :
    conditional true target isCall s = branch target isCall s := rfl

theorem conditional_of_untaken (target : Word) (isCall : Bool) (s : State) :
    conditional false target isCall s = branch (afterIp s) (isCall && s.config.untakenCallPushes) s := by
  rw [conditional, if_neg Bool.false_ne_true, nextAddress_eq_afterIp]

/-! ### The condition: the two senses of `pred` (10_state.md R33) -/

theorem id_boolOf_pred_iff (s : State) : id (boolOf s.pred) = true ↔ s.reg predIdx ≠ 0#16 := bne_iff_ne

theorem not_boolOf_pred_iff (s : State) : (not (boolOf s.pred)) = true ↔ s.reg predIdx = 0#16 := by
  rw [Bool.not_eq_true', ← Bool.not_eq_true, boolOf, bne_iff_ne, not_not, State.pred]

/-! ### What a jump instruction answers, by its action -/

section Answers

variable {i : Instr} {target : Source} {sense : Bool → Bool} {s0 s1 : RegIdx} {s : State} {P : Prop}

theorem exec_of_branch (hi : action i = .branch target false) : exec i s = .next (jumped (target.value s) s) := by
  rw [exec_eq_run, hi, Action.run, outcome_branch_jump]

theorem callsTo_of_branch (hi : action i = .branch target true) : CallsTo (target.value s) s (exec i s) := by
  rw [exec_eq_run, hi]
  exact callsTo_branch _ s

theorem exec_of_conditional [Decidable P] (hi : action i = .conditional sense target false)
    (hsense : sense (boolOf s.pred) = true ↔ P) :
    exec i s = .next (jumped (if P then target.value s else afterIp s) s) := by
  rw [exec_eq_run, hi, Action.run]
  by_cases h : P
  · rw [if_pos h, hsense.mpr h, conditional_of_taken, outcome_branch_jump]
  · rw [if_neg h, Bool.eq_false_iff.mpr (mt hsense.mp h), conditional_of_untaken, Bool.false_and, outcome_branch_jump]

theorem conditionallyCalls_of_conditional (hi : action i = .conditional sense target true)
    (hsense : sense (boolOf s.pred) = true ↔ P) : ConditionallyCalls P (target.value s) s (exec i s) := by
  rw [exec_eq_run, hi, Action.run]
  refine ⟨fun h => ?_, fun h hpushes => ?_, fun h hpushes => ?_⟩
  · rw [hsense.mpr h, conditional_of_taken]
    exact callsTo_branch _ s
  · rw [Bool.eq_false_iff.mpr (mt hsense.mp h), conditional_of_untaken, hpushes]
    exact callsTo_branch _ s
  · rw [Bool.eq_false_iff.mpr (mt hsense.mp h), conditional_of_untaken, hpushes, Bool.true_and, outcome_branch_jump]

/-- A choice between two registers is a branch to the register chosen. -/
theorem run_select [Decidable P] (isCall : Bool) (hsense : sense (boolOf s.pred) = true ↔ P) :
    (Action.select sense s0 s1 isCall).run s = branch (if P then s.reg s0 else s.reg s1) isCall s :=
  congrArg (branch · isCall s) (if_congr hsense rfl rfl)

theorem exec_of_select [Decidable P] (hi : action i = .select sense s0 s1 false)
    (hsense : sense (boolOf s.pred) = true ↔ P) :
    exec i s = .next (jumped (if P then s.reg s0 else s.reg s1) s) := by
  rw [exec_eq_run, hi, run_select false hsense, outcome_branch_jump]

theorem callsTo_of_select [Decidable P] (hi : action i = .select sense s0 s1 true)
    (hsense : sense (boolOf s.pred) = true ↔ P) :
    CallsTo (if P then s.reg s0 else s.reg s1) s (exec i s) := by
  rw [exec_eq_run, hi, run_select true hsense]
  exact callsTo_branch _ s

theorem exec_ret_of_le (h : s.config.callSize ≤ (s.reg cspIdx).toNat) :
    exec .ret s = .next (s.takeError (.addressOutOfRange .call (s.reg cspIdx))) := by
  rw [exec_eq_run, action, Action.run, pop_of_le (k := .callStack) h, Res.andThen_raised, Res.outcome_raised]
  rfl

theorem exec_ret_of_lt (h : (s.reg cspIdx).toNat < s.config.callSize) :
    exec .ret s =
      .next (jumped (s.call.readWord (s.reg cspIdx).toNat) (s.setReg cspIdx (s.reg cspIdx - 1#16))) := by
  rw [exec_eq_run, action, Action.run, pop_of_lt (k := .callStack) h, Res.andThen_done, Res.outcome_done]
  rfl

end Answers

/-! ### The actions that push a return address -/

/-- The action is a call that pushes in this state. -/
def Action.pushesReturn : Action → State → Bool
  | .branch _ isCall, _ | .select _ _ _ isCall, _ => isCall
  | .conditional sense _ isCall, s => isCall && (sense (boolOf s.pred) || s.config.untakenCallPushes)
  | _, _ => false

theorem pushesReturn_action (i : Instr) (s : State) : (action i).pushesReturn s = pushesReturn i s := by
  cases i
  case callfI | callfR =>
    exact congrArg (· || s.config.untakenCallPushes) (Bool.not_not (s.reg predIdx == 0#16))
  all_goals rfl

theorem Action.run_of_pushesReturn {a : Action} {s : State} (h : a.pushesReturn s = true) :
    ∃ target, a.run s = Machine.branch target true s := by
  cases a with
  | branch target isCall | select sense s0 s1 isCall =>
    cases h
    exact ⟨_, rfl⟩
  | conditional sense target isCall =>
    obtain ⟨rfl, hpushes⟩ := Bool.and_eq_true_iff.mp h
    rw [Action.run]
    cases hsense : sense (boolOf s.pred) with
    | true => exact ⟨_, conditional_of_taken _ true s⟩
    | false =>
      rw [hsense, Bool.false_or] at hpushes
      exact ⟨afterIp s, by rw [conditional_of_untaken, hpushes, Bool.true_and]⟩
  | _ => cases h

/-! ### The step of a jump -/

theorem decode_of_fetchesInstr {s : State} {i : Instr} (h : fetchesInstr s i) :
    decode (s.code.readCell s.ip.toNat) = .instr i := by
  obtain ⟨_, hbytes⟩ := h
  have hcell : cellOfBytes (s.byteAt .code (4 * s.ip.toNat)) (s.byteAt .code (4 * s.ip.toNat + 1))
      (s.byteAt .code (4 * s.ip.toNat + 2)) (s.byteAt .code (4 * s.ip.toNat + 3)) = s.code.readCell s.ip.toNat := rfl
  rw [decodeBytes, hcell] at hbytes
  cases hdec : decode (s.code.readCell s.ip.toNat) <;> rw [hdec] at hbytes <;> cases hbytes
  rfl

theorem step_of_exec {s t : State} {i : Instr} (hrun : s.running = true) (hi : fetchesInstr s i)
    (hexec : exec i s.beginStep = .next t) : step s = .next t.finishStep := by
  have hdec := decode_of_fetchesInstr hi
  obtain ⟨hip, _⟩ := hi
  have hfetch : fetch s.beginStep = .done (s.code.readCell s.ip.toNat) s.beginStep := fetch_of_lt hip
  rw [step, if_pos hrun, runStep, hfetch]
  simp only [dispatchDecoded, hdec, hexec]

/-- The end of a step restores the suppression flag that the jump cleared. -/
theorem finishStep_jumped {u : State} (herr : u.error = none) (hadv : u.advancePc = true) (target : Word) :
    (jumped target u).finishStep = u.setReg ipIdx target := by
  calc (jumped target u).finishStep
    _ = (jumped target u).advance := State.finishStep_of_no_error herr
    _ = { u.setReg ipIdx target with advancePc := true } := rfl
    _ = u.setReg ipIdx target := by rw [← hadv]; rfl

/-- The state in which a call has pushed its return address and has not yet jumped. -/
def State.returnPushed (s : State) : State :=
  (s.beginStep.setReg cspIdx (s.reg cspIdx + 1#16)).setMem .call
    (s.call.writeWord (s.reg cspIdx + 1#16).toNat (afterIp s))

/-- The state after the step of a call. -/
def State.called (target : Word) (s : State) : State :=
  s.returnPushed.setReg ipIdx target

theorem step_of_call {s : State} {i : Instr} (hrun : s.running = true) (hi : fetchesInstr s i)
    (hpush : pushesReturn i s = true) (hcsp : (s.reg cspIdx + 1#16).toNat < s.config.callSize) :
    ∃ target, step s = .next (s.called target) := by
  have hbegin : (action i).pushesReturn s.beginStep = true := (pushesReturn_action i s.beginStep).trans hpush
  obtain ⟨target, hbranch⟩ := Action.run_of_pushesReturn hbegin
  have hexec : exec i s.beginStep = .next (jumped target s.returnPushed) := by
    rw [exec_eq_run, hbranch]
    exact (callsTo_branch target s.beginStep).2 hcsp
  have herr : s.returnPushed.error = none := ((State.running_iff s).mp hrun).2
  exact ⟨target, by rw [step_of_exec hrun hi hexec, finishStep_jumped herr rfl, State.called]⟩

theorem step_of_ret {s : State} (hrun : s.running = true) (hi : fetchesInstr s .ret)
    (hcsp : (s.reg cspIdx).toNat < s.config.callSize) :
    step s = .next ((s.beginStep.setReg cspIdx (s.reg cspIdx - 1#16)).setReg ipIdx
      (s.call.readWord (s.reg cspIdx).toNat)) := by
  have hexec := exec_ret_of_lt (s := s.beginStep) hcsp
  have herr : (s.beginStep.setReg cspIdx (s.reg cspIdx - 1#16)).error = none := ((State.running_iff s).mp hrun).2
  rw [step_of_exec hrun hi hexec, State.beginStep_reg, finishStep_jumped herr rfl, State.beginStep_call]

/-! ### What a call leaves for the `ret` at its target -/

theorem reg_csp_called (s : State) (target : Word) : (s.called target).reg cspIdx = s.reg cspIdx + 1#16 := by
  rw [State.called, State.reg_setReg_of_ne _ (by decide), State.returnPushed, State.setMem_reg,
    State.reg_setReg_self _ (by decide)]

theorem reg_called_of_ne (s : State) (target : Word) {r : RegIdx} (hip : r ≠ ipIdx) (hcsp : r ≠ cspIdx) :
    (s.called target).reg r = s.reg r := by
  rw [State.called, State.reg_setReg_of_ne _ hip, State.returnPushed, State.setMem_reg, State.reg_setReg_of_ne _ hcsp,
    State.beginStep_reg]

theorem readWord_called (s : State) (target : Word) :
    (s.called target).call.readWord (s.reg cspIdx + 1#16).toNat = s.reg ipIdx + 1#16 := by
  rw [State.called, State.setReg_call, State.returnPushed, State.setMem_call_call, Memory.readWord_writeWord_self,
    ← nextAddress_eq_afterIp, State.nextAddress, State.ip]

/-- With `csp` put back, the registers other than `ip` are those before the call. -/
theorem reg_returned_of_ne (s : State) (target back : Word) {r : RegIdx} (hip : r ≠ ipIdx) :
    (((s.called target).beginStep.setReg cspIdx (s.reg cspIdx)).setReg ipIdx back).reg r = s.reg r := by
  rw [State.reg_setReg_of_ne _ hip]
  by_cases hcsp : r = cspIdx
  · rw [hcsp, State.reg_setReg_self _ (by decide)]
  · rw [State.reg_setReg_of_ne _ hcsp, State.beginStep_reg, reg_called_of_ne s target hip hcsp]

theorem core_run_two {s t u : State} (hs : step s = .next t) (ht : step t = .next u) :
    Host.Core.run Sys2Proof.core 2 s = .next u := by
  have hs' : Sys2Proof.core.step s = .next t := hs
  have ht' : Sys2Proof.core.step t = .next u := ht
  simp only [Host.Core.run, hs', ht']

end Sys2Proof.Machine
end

section
open Sys2Proof Sys2Proof.Machine Sys2Proof.Statements

/-- Settles O33: each word decodes to a branch without a push, whose target the condition on `pred` chooses. -/
theorem branchRules : Obligations.BranchRules := fun imm s0 x y s =>
  ⟨⟨decode_wordI (fun _ _ => rfl) imm, exec_of_branch (target := .imm imm) rfl⟩,
    ⟨decode_wordR _ x s0 y, exec_of_branch (target := .reg s0) rfl⟩,
    ⟨decode_wordI (fun _ _ => rfl) imm, exec_of_conditional (target := .imm imm) rfl (id_boolOf_pred_iff s)⟩,
    ⟨decode_wordR _ x s0 y, exec_of_conditional (target := .reg s0) rfl (id_boolOf_pred_iff s)⟩,
    ⟨decode_wordI (fun _ _ => rfl) imm, exec_of_conditional (target := .imm imm) rfl (not_boolOf_pred_iff s)⟩,
    ⟨decode_wordR _ x s0 y, exec_of_conditional (target := .reg s0) rfl (not_boolOf_pred_iff s)⟩⟩

/-- Settles O34: a call is the push of the address after it before the jump, and `ret` is the pop before the jump. -/
theorem callAndReturnRules : Obligations.CallAndReturnRules := fun imm s0 x y z _ =>
  ⟨⟨decode_wordI (fun _ _ => rfl) imm, callsTo_of_branch (target := .imm imm) rfl⟩,
    ⟨decode_wordR _ x s0 y, callsTo_of_branch (target := .reg s0) rfl⟩,
    decode_wordR _ x y z, exec_ret_of_le, exec_ret_of_lt⟩

/-- Settles O35: taken, a conditional call is a call of its target; untaken, `UNTAKEN_CALL_PUSHES` decides whether it pushes. -/
theorem conditionalCallRules : Obligations.ConditionalCallRules := fun imm s0 x y s =>
  ⟨⟨decode_wordI (fun _ _ => rfl) imm,
      conditionallyCalls_of_conditional (target := .imm imm) rfl (id_boolOf_pred_iff s)⟩,
    ⟨decode_wordR _ x s0 y, conditionallyCalls_of_conditional (target := .reg s0) rfl (id_boolOf_pred_iff s)⟩,
    ⟨decode_wordI (fun _ _ => rfl) imm,
      conditionallyCalls_of_conditional (target := .imm imm) rfl (not_boolOf_pred_iff s)⟩,
    ⟨decode_wordR _ x s0 y, conditionallyCalls_of_conditional (target := .reg s0) rfl (not_boolOf_pred_iff s)⟩⟩

/-- Settles O36: the choice fixes the target of one branch, which pushes or not whichever register is chosen. -/
theorem ifThenElseRules : Obligations.IfThenElseRules := fun s0 s1 x s =>
  ⟨⟨decode_wordR _ x s0 s1, exec_of_select rfl (id_boolOf_pred_iff s)⟩,
    ⟨decode_wordR _ x s0 s1, exec_of_select rfl (not_boolOf_pred_iff s)⟩,
    ⟨decode_wordR _ x s0 s1, callsTo_of_select rfl (id_boolOf_pred_iff s)⟩,
    ⟨decode_wordR _ x s0 s1, callsTo_of_select rfl (not_boolOf_pred_iff s)⟩⟩

/-- Settles O37: whatever the target of the call, the `ret` there pops the address that the call has pushed, which moves `csp`
back to where it was. -/
theorem callThenReturn : Obligations.CallThenReturn := by
  intro s t i hrun hi hpush hcsp hcall hret
  obtain ⟨target, hcall'⟩ := step_of_call hrun hi hpush hcsp
  cases hcall.symm.trans hcall'
  have hrange : ((s.called target).reg cspIdx).toNat < s.config.callSize :=
    (reg_csp_called s target).symm ▸ hcsp
  have hrun' : (s.called target).running = true := hrun
  have hreturn := step_of_ret hrun' hret hrange
  rw [reg_csp_called, readWord_called, BitVec.add_sub_cancel] at hreturn
  exact ⟨_, core_run_two hcall hreturn, hrun, State.reg_ip_setReg_ip _ _, reg_returned_of_ne s target _ (by decide),
    fun r hr => reg_returned_of_ne s target _ hr, rfl, rfl, rfl⟩

end

section
/-! PROOFS. The misc group (44_misc_syscall.md R271 to R273): the code point `putc` composes as a number, what each system call
answers, and the steps of the two that halt. -/

namespace Sys2Proof.Machine

open Sys2Proof.Statements

/-! ### The code point of `putc`, as a number (44_misc_syscall.md R273) -/

theorem putcCode_true (a b : Word) : putcCode true a b = BitVec.ofNat 32 (a.toNat % 256) := by
  rw [← toNat_lowByte]
  exact (BitVec.ofNat_toNat 32 (lowByte a)).symm

theorem putcCode_false (a b : Word) : putcCode false a b = BitVec.ofNat 32 (65536 * b.toNat + a.toNat) := by
  have happend : (b ++ a : BitVec 32).toNat = 65536 * b.toNat + a.toNat := by
    rw [toNat_append_eq_add]
    omega
  rw [← happend, BitVec.ofNat_toNat, BitVec.setWidth_eq]
  rfl

/-! ### What a system call answers -/

theorem exec_syscallTerminate (s : State) : exec .syscallTerminate s = .next { s with halted := true } := by
  rw [exec_eq_run, action, Action.run, Res.outcome_done]

theorem exec_syscallPanic (imm : Word) (s : State) : exec (.syscallPanic imm) s = .next (s.takeError (.panic imm)) := by
  rw [exec_eq_run, action, Action.run, Res.outcome_raised]

theorem exec_syscallPutc (s0 s1 : RegIdx) (s : State) :
    exec (.syscallPutc s0 s1) s = .next (s.emit (putcCode (s0 == s1) (s.reg s0) (s.reg s1))) := by
  rw [exec_eq_run, action, Action.run, Res.outcome_done]

/-- The form depends on the register indices, not on what the registers hold. -/
theorem exec_syscallPutc_of_eq {s0 s1 : RegIdx} (h : s0 = s1) (s : State) :
    exec (.syscallPutc s0 s1) s = .next (s.emit (BitVec.ofNat 32 ((s.reg s0).toNat % 256))) := by
  rw [exec_syscallPutc, beq_iff_eq.mpr h, putcCode_true]

theorem exec_syscallPutc_of_ne {s0 s1 : RegIdx} (h : s0 ≠ s1) (s : State) :
    exec (.syscallPutc s0 s1) s =
      .next (s.emit (BitVec.ofNat 32 (65536 * (s.reg s1).toNat + (s.reg s0).toNat))) := by
  rw [exec_syscallPutc, beq_false_of_ne h, putcCode_false]

/-! ### The steps of the two system calls that halt -/

/-- The halt flag does not suppress the advance: the run loop sees it at the next step only. -/
theorem step_of_syscallTerminate {s : State} (hrun : s.running = true) (hi : fetchesInstr s .syscallTerminate) :
    step s = .next ({ s.beginStep with halted := true }.setReg ipIdx s.nextAddress) := by
  have herr : { s.beginStep with halted := true }.error = none := ((State.running_iff s).mp hrun).2
  rw [step_of_exec hrun hi (exec_syscallTerminate s.beginStep), State.finishStep_of_no_error herr]
  rfl

/-- The error skips the advance. -/
theorem step_of_syscallPanic {s : State} {imm : Word} (hrun : s.running = true) (hi : fetchesInstr s (.syscallPanic imm)) :
    step s = .next (s.beginStep.takeError (.panic imm)) := by
  rw [step_of_exec hrun hi (exec_syscallPanic imm s.beginStep), State.finishStep_takeError]

end Sys2Proof.Machine
end

section
open Sys2Proof Sys2Proof.Machine Sys2Proof.Statements

/-- Settles O50: of the two system calls that halt, only `panic` latches an error, so only the step of `terminate` advances. -/
theorem systemCallRules : Obligations.SystemCallRules := by
  refine ⟨fun s0 s1 imm s => ⟨⟨decode_wordR _ 0 s0 s1, exec_syscallTerminate s⟩,
    ⟨decode_wordI (fun _ _ => rfl) imm, exec_syscallPanic imm s⟩,
    decode_wordR _ 2 s0 s1, fun h => exec_syscallPutc_of_eq h s, fun h => exec_syscallPutc_of_ne h s⟩, ?_, ?_⟩
  · intro s hrun hi
    have herr : s.error = none := ((State.running_iff s).mp hrun).2
    exact ⟨_, step_of_syscallTerminate hrun hi, rfl, herr, State.reg_ip_setReg_ip _ _,
      fun r hr => State.reg_setReg_of_ne _ hr _⟩
  · intro s imm hrun hi
    exact ⟨_, step_of_syscallPanic hrun hi, rfl, rfl, fun r => State.takeError_reg s.beginStep _ r⟩

end

section
/-! PROOFS. The IO device registry (45_io_registry.md R286 to R290): when ranges share an address, what a registration answers,
which device the lookup finds, and which hooks are called. -/

namespace Sys2Proof.Machine

/-! ### Ranges that share an address (45_io_registry.md R286, R288) -/

theorem respondsTo_iff (dev : Device) (a : Word) :
    respondsTo dev a = true ↔ dev.first.toNat ≤ a.toNat ∧ a.toNat ≤ dev.last.toNat := by
  simp [respondsTo]

theorem wellFormed_iff_first_le_last (dev : Device) : dev.wellFormed = true ↔ dev.first.toNat ≤ dev.last.toNat :=
  decide_eq_true_iff

theorem overlaps_iff (d e : Device) :
    d.overlaps e = true ↔ d.first.toNat ≤ e.last.toNat ∧ e.first.toNat ≤ d.last.toNat := by
  simp [Device.overlaps]

theorem overlaps_comm (d e : Device) : d.overlaps e = e.overlaps d :=
  Bool.and_comm _ _

theorem overlaps_of_responds {d e : Device} {a : Word} (hd : respondsTo d a = true) (he : respondsTo e a = true) :
    d.overlaps e = true := by
  rw [respondsTo_iff] at hd he
  exact (overlaps_iff d e).mpr ⟨hd.1.trans he.2, he.1.trans hd.2⟩

/-- Ranges that overlap share the larger of their first addresses. -/
theorem exists_responds_of_overlaps {d e : Device} (hd : d.wellFormed = true) (he : e.wellFormed = true)
    (h : d.overlaps e = true) : ∃ a, respondsTo d a = true ∧ respondsTo e a = true := by
  rw [wellFormed_iff_first_le_last] at hd he
  obtain ⟨hde, hed⟩ := (overlaps_iff d e).mp h
  simp only [respondsTo_iff]
  rcases Nat.le_total d.first.toNat e.first.toNat with hle | hle
  · exact ⟨e.first, ⟨hle, hed⟩, Nat.le_refl _, he⟩
  · exact ⟨d.first, ⟨Nat.le_refl _, hd⟩, hle, hde⟩

theorem devicesWellFormed_cons {dev : Device} {rest : List Device} :
    devicesWellFormed (dev :: rest) = true ↔
      dev.wellFormed = true ∧ (∀ e ∈ rest, dev.overlaps e = false) ∧ devicesWellFormed rest = true := by
  simp [devicesWellFormed, and_assoc]

theorem wellFormed_of_mem {devices : List Device} (h : devicesWellFormed devices = true) :
    ∀ e ∈ devices, e.wellFormed = true := by
  induction devices with
  | nil => exact List.forall_mem_nil _
  | cons dev rest ih =>
    obtain ⟨hdev, _, hrest⟩ := devicesWellFormed_cons.mp h
    exact List.forall_mem_cons.mpr ⟨hdev, ih hrest⟩

/-- A legal range that overlaps none of the list may be put at its end. -/
theorem devicesWellFormed_append {devices : List Device} {dev : Device} (h : devicesWellFormed devices = true)
    (hdev : dev.wellFormed = true) (hnew : ∀ e ∈ devices, dev.overlaps e = false) :
    devicesWellFormed (devices ++ [dev]) = true := by
  induction devices with
  | nil => exact devicesWellFormed_cons.mpr ⟨hdev, List.forall_mem_nil _, rfl⟩
  | cons head rest ih =>
    obtain ⟨hhead, hdisjoint, hrest⟩ := devicesWellFormed_cons.mp h
    obtain ⟨hdevHead, hdevRest⟩ := List.forall_mem_cons.mp hnew
    refine devicesWellFormed_cons.mpr ⟨hhead, List.forall_mem_append.mpr ⟨hdisjoint, ?_⟩, ih hrest hdevRest⟩
    exact List.forall_mem_singleton.mpr (overlaps_comm head dev ▸ hdevHead)

/-! ### What a registration answers (45_io_registry.md R288) -/

section Register

variable {dev : Device} {s : State}

theorem register_of_badRange (hs : s.started = false) (hdev : dev.wellFormed = false) :
    s.register dev = .refused .badRange := by
  simp [State.register, hs, hdev]

theorem register_of_overlap (hs : s.started = false) (hdev : dev.wellFormed = true) {e : Device}
    (he : e ∈ s.config.devices) (h : dev.overlaps e = true) :
    s.register dev = .refused (.setupError .overlappingDevice) := by
  have hany : s.config.devices.any (fun e => dev.overlaps e) = true := List.any_eq_true.mpr ⟨e, he, h⟩
  simp [State.register, hs, hdev, hany]

theorem register_of_disjoint (hs : s.started = false) (hdev : dev.wellFormed = true)
    (h : ∀ e ∈ s.config.devices, dev.overlaps e = false) :
    s.register dev = .ok { s with config := { s.config with devices := s.config.devices ++ [dev] } } := by
  have hany : s.config.devices.any (fun e => dev.overlaps e) = false :=
    List.any_eq_false.mpr fun e he => Bool.eq_false_iff.mp (h e he)
  simp [State.register, hs, hdev, hany]

end Register

/-! ### The device found (45_io_registry.md R289) -/

theorem registryLookup_eq_find? (devices : List Device) (a : Word) :
    registryLookup devices a = devices.find? (fun dev => respondsTo dev a) := by
  induction devices with
  | nil => rfl
  | cons dev rest ih =>
    rw [registryLookup, List.find?_cons, ih]
    cases respondsTo dev a <;> rfl

theorem registryLookup_eq_some_iff {devices : List Device} {a : Word} {dev : Device} :
    registryLookup devices a = some dev ↔
      ∃ before after, devices = before ++ dev :: after ∧ respondsTo dev a = true ∧
        ∀ e ∈ before, respondsTo e a = false := by
  simp only [registryLookup_eq_find?, List.find?_eq_some_iff_append, Bool.not_eq_true']
  exact ⟨fun ⟨hr, before, after, hsplit, hbefore⟩ => ⟨before, after, hsplit, hr, hbefore⟩,
    fun ⟨before, after, hsplit, hr, hbefore⟩ => ⟨hr, before, after, hsplit, hbefore⟩⟩

theorem registryLookup_eq_none_iff {devices : List Device} {a : Word} :
    registryLookup devices a = none ↔ ∀ e ∈ devices, respondsTo e a = false := by
  simp only [registryLookup_eq_find?, List.find?_eq_none, Bool.not_eq_true]

/-- Two devices that respond at one address overlap, so disjoint ranges leave no other responder before this one. -/
theorem registryLookup_of_responds {devices : List Device} {a : Word} {e : Device}
    (h : devicesWellFormed devices = true) (he : e ∈ devices) (hr : respondsTo e a = true) :
    registryLookup devices a = some e := by
  induction devices with
  | nil => exact nomatch he
  | cons dev rest ih =>
    obtain ⟨_, hdisjoint, hrest⟩ := devicesWellFormed_cons.mp h
    rcases List.mem_cons.mp he with rfl | hmem
    · exact if_pos hr
    · have hsilent : ¬respondsTo dev a = true := fun hdev =>
        Bool.eq_false_iff.mp (hdisjoint e hmem) (overlaps_of_responds hdev hr)
      exact (if_neg hsilent).trans (ih hrest hmem)

/-! ### The hooks called (45_io_registry.md R290) -/

section Hooks

variable {hook : Device → Option Nat}

/-- Devices whose hook succeeds are called, and the run goes on behind them. -/
theorem runHooks_append {before : List Device} (h : ∀ b ∈ before, hook b = none) (rest : List Device) :
    runHooks hook (before ++ rest) =
      { called := before ++ (runHooks hook rest).called, failure := (runHooks hook rest).failure } := by
  induction before with
  | nil => rfl
  | cons dev before ih =>
    obtain ⟨hdev, hbefore⟩ := List.forall_mem_cons.mp h
    rw [List.cons_append, runHooks, hdev, ih hbefore]
    rfl

theorem runHooks_cons_of_some {dev : Device} {e : Nat} (h : hook dev = some e) (rest : List Device) :
    runHooks hook (dev :: rest) = { called := [dev], failure := some e } := by
  rw [runHooks, h]

theorem runHooks_of_none {devices : List Device} (h : ∀ dev ∈ devices, hook dev = none) :
    runHooks hook devices = { called := devices, failure := none } := by
  simpa [runHooks] using runHooks_append h []

theorem runHooks_of_first_failure {devices before : List Device} {dev : Device} {after : List Device} {e : Nat}
    (hsplit : devices = before ++ dev :: after) (hbefore : ∀ b ∈ before, hook b = none) (hdev : hook dev = some e) :
    runHooks hook devices = { called := before ++ [dev], failure := some e } := by
  rw [hsplit, runHooks_append hbefore, runHooks_cons_of_some hdev]

end Hooks

end Sys2Proof.Machine
end

section
open Sys2Proof Sys2Proof.Machine Sys2Proof.Statements

/-- Settles O51: ranges share an address exactly when they overlap, which is what a registration tests; a step latches only
errors that its operations raise. -/
theorem registerRules : Obligations.RegisterRules := by
  refine ⟨respondsTo_iff, fun dev s hs hwf => ⟨fun hbad => ?_, fun hrange => ⟨?_, fun hfree => ?_⟩⟩, ?_⟩
  · exact register_of_badRange hs (decide_eq_false (Nat.not_le.mpr hbad))
  · rintro ⟨e, he, a, hfirst, hlast, hr⟩
    have hdev : respondsTo dev a = true := (respondsTo_iff dev a).mpr ⟨hfirst, hlast⟩
    exact register_of_overlap hs ((wellFormed_iff_first_le_last dev).mpr hrange) he (overlaps_of_responds hdev hr)
  · have hlegal : dev.wellFormed = true := (wellFormed_iff_first_le_last dev).mpr hrange
    have hdisjoint : ∀ e ∈ s.config.devices, dev.overlaps e = false := fun e he => by
      refine Bool.eq_false_iff.mpr fun hover => ?_
      obtain ⟨a, hdev, hr⟩ := exists_responds_of_overlaps hlegal (wellFormed_of_mem hwf e he) hover
      obtain ⟨hfirst, hlast⟩ := (respondsTo_iff dev a).mp hdev
      exact Bool.eq_false_iff.mp (hfree e he a hfirst hlast) hr
    exact ⟨register_of_disjoint hs hlegal hdisjoint, devicesWellFormed_append hwf hlegal hdisjoint⟩
  · exact fun s t hrun hstep herr => step_error_fromStep hrun hstep herr

/-- Settles O52: the lookup is a search for the first responder, and disjoint ranges leave one responder only. -/
theorem lookupFindsTheOneDevice : Obligations.LookupFindsTheOneDevice := fun _ _ =>
  ⟨fun _ => registryLookup_eq_some_iff, registryLookup_eq_none_iff,
    fun hwf _ he hr => registryLookup_of_responds hwf he hr⟩

/-- Settles O53: a run of either kind of hook goes past the devices that succeed and ends at the first that fails. -/
theorem hooksStopAtFirstFailure : Obligations.HooksStopAtFirstFailure := fun _ =>
  ⟨runHooks_of_none, fun _ _ _ _ => runHooks_of_first_failure,
    runHooks_of_none, fun _ _ _ _ => runHooks_of_first_failure⟩

end

section
/-! PROOFS. The sequencer (46_sequencer.md R300 to R306): one equation of `step` for each thing a step can meet (no step
enabled, a fetch out of range, a decoded cell), what dispatch answers for either kind of decoded cell, and which steps halt. -/

namespace Sys2Proof.Machine

open Sys2Proof.Statements

/-! ### No step is enabled (46_sequencer.md R306) -/

theorem step_of_not_running {s : State} (h : s.running = false) : step s = .next s := by
  rw [step, h, if_neg Bool.false_ne_true]

theorem running_eq_false_of_halted {s : State} (h : s.halted = true) : s.running = false := by
  rw [State.running, h, Bool.not_true, Bool.false_and]

theorem step_of_halted {s : State} (h : s.halted = true) : step s = .next s :=
  step_of_not_running (running_eq_false_of_halted h)

/-- A state that a step leaves as it is stays so for any number of steps. -/
theorem core_run_of_step_self {s : State} (h : step s = .next s) (n : Nat) :
    Host.Core.run Sys2Proof.core n s = .next s := by
  have hstep : Sys2Proof.core.step s = .next s := h
  induction n with
  | zero => rfl
  | succ n ih => simp only [Host.Core.run, hstep, ih]

/-! ### The end of a step (46_sequencer.md R301, R305) -/

theorem State.finishStep_of_error {s : State} (h : s.error ≠ none) : s.finishStep = s :=
  if_pos (Option.isSome_iff_ne_none.mpr h)

theorem State.finishStep_of_advances {s : State} (herr : s.error = none) (hadv : s.advancePc = true) :
    s.finishStep = s.setReg ipIdx (s.reg ipIdx + 1#16) := by
  rw [State.finishStep_of_no_error herr, State.advance, if_pos hadv, State.nextAddress, State.ip]

theorem State.finishStep_of_suppressed {s : State} (herr : s.error = none) (hadv : s.advancePc = false) :
    s.finishStep = { s with advancePc := true } := by
  rw [State.finishStep_of_no_error herr, State.advance, hadv, if_neg Bool.false_ne_true]

theorem State.advance_halted (s : State) : s.advance.halted = s.halted := by
  unfold State.advance
  split <;> rfl

/-! ### The step of a running core (46_sequencer.md R301, R302, R304) -/

theorem dispatchDecoded_instr (i : Instr) (s : State) :
    dispatchDecoded (.instr i) s = mapNext State.finishStep (exec i s) := by
  cases h : exec i s <;> simp only [dispatchDecoded, h, mapNext]

theorem dispatchDecoded_undefined (u : Undefined) (s : State) :
    dispatchDecoded (.undefined u) s = mapNext State.finishStep (dispatchUndefined u s).outcome := by
  cases h : (dispatchUndefined u s).outcome <;> simp only [dispatchDecoded, h, mapNext]

section Step

variable {s : State} (hrun : s.running = true)
include hrun

theorem step_of_fetch_raised (hip : s.config.codeSize ≤ s.ip.toNat) :
    step s = .next (s.beginStep.takeError (.addressOutOfRange .code s.ip)) := by
  have hfetch : fetch s.beginStep = .raised (.addressOutOfRange .code s.ip) s.beginStep := if_pos hip
  rw [step, if_pos hrun, runStep, hfetch]

theorem step_of_fetch_done (hip : s.ip.toNat < s.config.codeSize) :
    step s = dispatchDecoded (decode (s.code.readCell s.ip.toNat)) s.beginStep := by
  have hfetch : fetch s.beginStep = .done (s.code.readCell s.ip.toNat) s.beginStep := fetch_of_lt hip
  rw [step, if_pos hrun, runStep, hfetch]

theorem step_of_fetchesInstr {i : Instr} (hi : fetchesInstr s i) :
    step s = mapNext State.finishStep (exec i s.beginStep) := by
  have hdec := decode_of_fetchesInstr hi
  obtain ⟨hip, _⟩ := hi
  rw [step_of_fetch_done hrun hip, hdec, dispatchDecoded_instr]

theorem step_of_systemCommand {sel s0 s1 : Byte} (hip : s.ip.toNat < s.config.codeSize)
    (hdec : decode (s.code.readCell s.ip.toNat) = .undefined (.systemCommand sel s0 s1)) :
    step s = mapNext State.finishStep (systemCall sel s0 s1 s.beginStep).outcome := by
  rw [step_of_fetch_done hrun hip, hdec, dispatchDecoded_undefined, dispatchUndefined]

end Step

/-! ### Registered system calls (44_misc_syscall.md R270; log 20) -/

theorem undefinedError_eq_invalidSystemCommand {u : Undefined} {sel : Byte}
    (h : undefinedError u = .invalidSystemCommand sel) : ∃ s0 s1, u = .systemCommand sel s0 s1 := by
  cases u with
  | systemCommand sel' s0 s1 =>
    cases h
    exact ⟨s0, s1, rfl⟩
  | _ => cases h

section SystemCall

variable {sel s0 s1 : Byte} {s : State}

theorem systemCall_terminate (h : systemCallTable s.config sel = .terminate) :
    systemCall sel s0 s1 s = .done () { s with halted := true } := by
  simp [systemCall, h]

theorem systemCall_panic (h : systemCallTable s.config sel = .panic) :
    systemCall sel s0 s1 s = .raised (.panic (s1 ++ s0)) s := by
  simp [systemCall, h]

theorem systemCall_putc (h : systemCallTable s.config sel = .putc) :
    systemCall sel s0 s1 s = .done () (s.emit (putcCode (s0 == s1) (s.reg s0) (s.reg s1))) := by
  simp [systemCall, h]

theorem systemCall_platform_result (h : systemCallTable s.config sel = .platform) {halt emit : Bool} {c : BitVec 32}
    (hdraw : Config.systemCallDraw sel (s1 ++ s0) (s.reg s0) (s.reg s1) (s0 == s1) = .result halt emit c) :
    systemCall sel s0 s1 s = .done () (s.applyResult halt emit c) := by
  simp [systemCall, h, hdraw]

theorem systemCall_platform_panic (h : systemCallTable s.config sel = .platform) {payload : Word}
    (hdraw : Config.systemCallDraw sel (s1 ++ s0) (s.reg s0) (s.reg s1) (s0 == s1) = .panic payload) :
    systemCall sel s0 s1 s = .raised (.panic payload) s := by
  simp [systemCall, h, hdraw]

/-- On a core that is not halted the result alone decides the halt flag. -/
theorem State.applyResult_of_not_halted (h : s.halted = false) (halt emit : Bool) (c : BitVec 32) :
    s.applyResult halt emit c = { s with halted := halt, out := if emit then s.out ++ [c] else s.out } := by
  rw [State.applyResult_frame, State.applyResult_halted, State.applyResult_out, h, Bool.false_or]

end SystemCall

section Registered

variable {sel s0 s1 : Byte} {s u : State} (hrun : s.running = true) (hip : s.ip.toNat < s.config.codeSize)
  (hdec : decode (s.code.readCell s.ip.toNat) = .undefined (.systemCommand sel s0 s1))
include hrun hip hdec

/-- A system call that completes advances like any instruction outside the jump group. -/
theorem step_of_systemCall_done (hcall : systemCall sel s0 s1 s.beginStep = .done () u) (herr : u.error = none)
    (hadv : u.advancePc = true) : step s = .next (u.setReg ipIdx (u.reg ipIdx + 1#16)) := by
  rw [step_of_systemCommand hrun hip hdec, hcall, Res.outcome_done, mapNext, State.finishStep_of_advances herr hadv]

theorem step_of_systemCall_raised {e : Error} (hcall : systemCall sel s0 s1 s.beginStep = .raised e s.beginStep) :
    step s = .next (s.beginStep.takeError e) := by
  rw [step_of_systemCommand hrun hip hdec, hcall, Res.outcome_raised, mapNext, State.finishStep_takeError]

theorem registeredCallSteps_of_decode : RegisteredCallSteps (systemCallTable s.config sel) sel s0 s1 s := by
  obtain ⟨hhalt, herr⟩ := (State.running_iff s).mp hrun
  refine ⟨fun h => ?_, fun h => ?_, fun h t ht => ?_, fun h => ?_⟩
  · exact step_of_systemCall_done hrun hip hdec (systemCall_terminate h) herr rfl
  · exact step_of_systemCall_raised hrun hip hdec (systemCall_panic h)
  · rw [exec_syscallPutc] at ht
    cases ht
    exact step_of_systemCall_done hrun hip hdec (systemCall_putc h) herr rfl
  · cases hdraw : Config.systemCallDraw sel (s1 ++ s0) (s.reg s0) (s.reg s1) (s0 == s1) with
    | result halt emit c =>
      have hcall := systemCall_platform_result (s := s.beginStep) h hdraw
      rw [State.applyResult_of_not_halted (s := s.beginStep) hhalt] at hcall
      exact step_of_systemCall_done hrun hip hdec hcall herr rfl
    | panic payload => exact step_of_systemCall_raised hrun hip hdec (systemCall_platform_panic (s := s.beginStep) h hdraw)

end Registered

/-! ### Which steps halt (46_sequencer.md R300) -/

theorem fetchesInstr_of_decode {s : State} {i : Instr} (hip : s.ip.toNat < s.config.codeSize)
    (hdec : decode (s.code.readCell s.ip.toNat) = .instr i) : fetchesInstr s i := by
  have hcell : cellOfBytes (s.byteAt .code (4 * s.ip.toNat)) (s.byteAt .code (4 * s.ip.toNat + 1))
      (s.byteAt .code (4 * s.ip.toNat + 2)) (s.byteAt .code (4 * s.ip.toNat + 3)) = s.code.readCell s.ip.toNat := rfl
  exact ⟨hip, by rw [decodeBytes, hcell, hdec]⟩

/-- The built-in selectors decode to instructions of their own. -/
theorem selector_of_decode {w : Cell32} {sel s0 s1 : Byte} (h : decode w = .undefined (.systemCommand sel s0 s1)) :
    3 ≤ sel.toNat := by
  have herr : undefinedEncoding (decodeFields w) = some (.invalidSystemCommand sel) := by
    rw [← error_select]
    exact Decoded.error_eq_some_iff.mpr ⟨_, h, rfl⟩
  unfold undefinedEncoding at herr
  split_ifs at herr <;> cases herr
  assumption

/-- Nothing but a system call halts without an error, and with nothing registered that is `terminate`. -/
theorem fetchesInstr_terminate_of_halts {s t : State} (hrun : s.running = true) (hstep : step s = .next t)
    (hhalts : t.halted = true) (hnone : t.error = none) (hext : s.config.syscallExt = []) :
    fetchesInstr s .syscallTerminate := by
  obtain ⟨hhalt, herr⟩ := (State.running_iff s).mp hrun
  rcases Nat.lt_or_ge s.ip.toNat s.config.codeSize with hip | hip
  · rw [step_of_fetch_done hrun hip] at hstep
    obtain ⟨u, rfl, ⟨i, hdec, hexec⟩ | ⟨c, hdec, hout⟩⟩ := dispatchDecoded_next hstep
    · by_cases hi : i = .syscallTerminate
      · exact hi ▸ fetchesInstr_of_decode hip hdec
      · rcases exec_reaches hexec with hu | ⟨e, w, _, rfl⟩
        · obtain ⟨_, _, _, herr', _⟩ := hu.fixed
          rw [State.finishStep_of_no_error (herr'.trans herr), State.advance_halted,
            hu.halted_of_not_halts (footprint_halts hi _)] at hhalts
          exact absurd (hhalt.symm.trans hhalts) Bool.false_ne_true
        · cases hnone
    · have hraised : dispatchUndefined c s.beginStep = .raised (undefinedError c) s.beginStep :=
        dispatchUndefined_eq_raised fun sel hsel => by
          obtain ⟨_, _, rfl⟩ := undefinedError_eq_invalidSystemCommand hsel
          exact systemCallTable_of_no_extension hext (selector_of_decode hdec)
      rw [hraised] at hout
      cases hout
      cases hnone
  · rw [step_of_fetch_raised hrun hip] at hstep
    cases hstep
    cases hnone

end Sys2Proof.Machine
end

section
open Sys2Proof Sys2Proof.Machine Sys2Proof.Statements

/-- Settles O16: one step answers the same state, so any number of them does. -/
theorem haltedCoreDoesNothing : Obligations.HaltedCoreDoesNothing := fun n _ hhalted =>
  core_run_of_step_self (step_of_halted hhalted) n

/-- Settles O17: a step of a running core either advances a state in which no error is latched, or takes an error and halts. -/
theorem runningCoreTransitions : Obligations.RunningCoreTransitions := by
  refine ⟨fun _ _ _ => ⟨rfl, rfl⟩, fun _ => step_of_halted, fun s t hrun hstep => ?_⟩
  rcases step_cases hstep with ⟨hstopped, _⟩ | ⟨_, f, u, hu, ht⟩
  · exact absurd (hstopped.symm.trans hrun) Bool.false_ne_true
  · rcases ht with rfl | ⟨e, rfl⟩
    · have hnone : u.advance.error = none := by
        obtain ⟨_, _, _, herr, _⟩ := hu.fixed
        calc u.advance.error = u.error := u.advance_error
          _ = s.error := herr
          _ = none := ((State.running_iff s).mp hrun).2
      cases hhalts : u.advance.halted with
      | false => exact .inl ⟨(State.running_iff _).mpr ⟨hhalts, hnone⟩, rfl, hnone⟩
      | true => exact .inr (.inl ⟨rfl, hnone, fetchesInstr_terminate_of_halts hrun hstep hhalts hnone⟩)
    · exact .inr (.inr ⟨rfl, Option.some_ne_none e⟩)

/-- Settles O14: `step` is the dispatch of the fetched cell followed by the end of the step, which advances, restores the
suppression flag, or keeps a latched error. -/
theorem stepRunsDecodedInstruction : Obligations.StepRunsDecodedInstruction := by
  refine ⟨fun _ => rfl, fun s i hrun hi => ?_, fun _ hrun hip => step_of_fetch_raised hrun hip,
    fun s u hrun hip hdec hsys => step_undefined hrun hip hdec fun sel hsel => ?_,
    fun _ _ _ _ hrun hip hdec => registeredCallSteps_of_decode hrun hip hdec, fun _ => step_of_not_running⟩
  · rw [step_of_fetchesInstr hrun hi]
    refine ⟨fun t ht herr hadv => ?_, fun t ht herr hadv => ?_, fun t ht herr => ?_, fun why hwhy => ?_⟩
    · rw [ht, mapNext, State.finishStep_of_advances herr hadv]
      rfl
    · rw [ht, mapNext, State.finishStep_of_suppressed herr hadv]
    · rw [ht, mapNext, State.finishStep_of_error herr]
    · rw [hwhy, mapNext]
  · obtain ⟨s0, s1, hu⟩ := undefinedError_eq_invalidSystemCommand hsel
    exact hsys sel s0 s1 hu

end

section
/-! PROOFS. Complete operations of the units, each as the function of its catalogue entry (47_functional_units.md R333 to R339):
what `operate_eq` leaves to say of a unit once its operands are written as the ports carry them (log 11). -/

namespace Sys2Proof.Machine

@[simp] theorem codeOp_setWidth (op : BitVec 5) : codeOp (op.setWidth 8) = op :=
  BitVec.setWidth_setWidth_of_le op (by decide)

section Alu

variable {s : State} {op : BitVec 5} {f : ArithFn} {a b : Word}

theorem operate_alu_of_no_function (h : s.unit .alu = .awaiting) (hf : aluFn op = none) (a b : Word) :
    operate .alu (op.setWidth 8) [a.setWidth 32, b.setWidth 32] s = .raised (.notImplemented op) s := by
  rw [operate_eq h rfl rfl]
  simp only [unitCompute, aluCompute, codeOp_setWidth, hf]

theorem operate_alu_of_none (h : s.unit .alu = .awaiting) (hf : aluFn op = some f) (hr : f a b = none) :
    operate .alu (op.setWidth 8) [a.setWidth 32, b.setWidth 32] s = .raised .divideByZero s := by
  rw [operate_eq h rfl rfl]
  simp only [unitCompute, aluCompute, codeOp_setWidth, hf, operandWord_setWidth, operandWord_setWidth_one, hr]

theorem operate_alu_of_some {r : Word} (h : s.unit .alu = .awaiting) (hf : aluFn op = some f) (hr : f a b = some r) :
    operate .alu (op.setWidth 8) [a.setWidth 32, b.setWidth 32] s = .done (.word r) s := by
  rw [operate_eq h rfl rfl]
  simp only [unitCompute, aluCompute, codeOp_setWidth, hf, operandWord_setWidth, operandWord_setWidth_one, hr]

end Alu

section Cmp

variable {s : State} {op : BitVec 5}

theorem operate_cmp_of_none (h : s.unit .cmp = .awaiting) (hp : cmpPredicate op = none) (pred a b : Word) :
    operate .cmp (op.setWidth 8) [pred.setWidth 32, a.setWidth 32, b.setWidth 32] s =
      .raised (.invalidCompareOperation op) s := by
  rw [operate_eq h rfl rfl]
  simp only [unitCompute, cmpCompute, codeOp_setWidth, hp]

theorem operate_cmp_of_some {p : Word → Word → Bool} (h : s.unit .cmp = .awaiting) (hp : cmpPredicate op = some p)
    (pred a b : Word) :
    operate .cmp (op.setWidth 8) [pred.setWidth 32, a.setWidth 32, b.setWidth 32] s =
      .done (.word (comparePred p (cmpCombinator op) pred a b)) s := by
  rw [operate_eq h rfl rfl]
  simp only [unitCompute, cmpCompute, codeOp_setWidth, hp, operandWord_setWidth, operandWord_setWidth_one,
    operandWord_setWidth_two]

end Cmp

section Bru

variable {s : State} {op : BitVec 5} {ip pred t f : Word}

theorem operate_bru_of_none (h : s.unit .bru = .awaiting)
    (hr : bruResult op s.config.untakenCallPushes ip pred t f = none) :
    operate .bru (op.setWidth 8) [ip.setWidth 32, pred.setWidth 32, t.setWidth 32, f.setWidth 32] s =
      .raised (.illegalJumpOperation op) s := by
  rw [operate_eq h rfl rfl]
  simp only [unitCompute, bruCompute, codeOp_setWidth, operandWord_setWidth, operandWord_setWidth_one,
    operandWord_setWidth_two, operandWord_setWidth_three, hr]

theorem operate_bru_of_some {res : UnitResult} (h : s.unit .bru = .awaiting)
    (hr : bruResult op s.config.untakenCallPushes ip pred t f = some res) :
    operate .bru (op.setWidth 8) [ip.setWidth 32, pred.setWidth 32, t.setWidth 32, f.setWidth 32] s = .done res s := by
  rw [operate_eq h rfl rfl]
  simp only [unitCompute, bruCompute, codeOp_setWidth, operandWord_setWidth, operandWord_setWidth_one,
    operandWord_setWidth_two, operandWord_setWidth_three, hr]

end Bru

/-- SYS and the integrator together do what the system-call table says (47_functional_units.md R339; 44_misc_syscall.md R270). -/
theorem operate_sys_andThen_composeSystem {s : State} (h : s.unit .sys = .awaiting) (sel s0 s1 : Byte) :
    (operate .sys sel [(s1 ++ s0).setWidth 32, (s.reg s0).setWidth 32, (s.reg s1).setWidth 32,
      if s0 = s1 then 1#32 else 0#32] s).andThen composeSystem = systemCall sel s0 s1 s := by
  have hsame : (operandAt [(s1 ++ s0).setWidth 32, (s.reg s0).setWidth 32, (s.reg s1).setWidth 32,
      if s0 = s1 then 1#32 else 0#32] 3).getLsbD 0 = (s0 == s1) := by
    by_cases heq : s0 = s1 <;> simp [operandAt, heq]
  rw [operate_eq h rfl rfl]
  simp only [unitCompute, sysCompute, hsame, operandWord_setWidth, operandWord_setWidth_one, operandWord_setWidth_two]
  cases ht : systemCallTable s.config sel with
  | terminate => rw [systemCall_terminate ht, ← s.applyResult_halt 0#32]; rfl
  | panic => rw [systemCall_panic ht]; rfl
  | putc => rw [systemCall_putc ht, ← State.applyResult_emit]; rfl
  | platform =>
    cases hdraw : Config.systemCallDraw sel (s1 ++ s0) (s.reg s0) (s.reg s1) (s0 == s1) with
    | result halt emit c => rw [systemCall_platform_result ht hdraw]; rfl
    | panic payload => rw [systemCall_platform_panic ht hdraw]; rfl
  | invalid => rw [systemCall_invalid ht]; rfl

end Sys2Proof.Machine
end

section
/-! PROOFS. The refinement of 47_functional_units.md R352: stage by stage, the integrator over the units does what the action of
the decoded cell does, and the end of the composed instruction is the end of the step. -/

namespace Sys2Proof.Machine

open Sys2Proof.Statements

/-! ### What dispatch runs, as one operation -/

/-- The operation that dispatch runs for a decoded cell. -/
def runDecoded : Decoded → State → Res Unit
  | .instr i, s => (action i).run s
  | .undefined u, s => dispatchUndefined u s

theorem dispatchDecoded_eq_run (dec : Decoded) (s : State) :
    dispatchDecoded dec s = mapNext State.finishStep (runDecoded dec s).outcome := by
  cases dec with
  | instr i => rw [dispatchDecoded_instr, exec_eq_run, runDecoded]
  | undefined u => exact dispatchDecoded_undefined u s

theorem runDecoded_of_error {dec : Decoded} {e : Error} (h : dec.error = some e)
    (he : ∀ sel, e ≠ .invalidSystemCommand sel) (s : State) : runDecoded dec s = .raised e s := by
  obtain ⟨u, rfl, rfl⟩ := Decoded.error_eq_some_iff.mp h
  exact dispatchUndefined_eq_raised fun sel hsel => absurd hsel (he sel)

/-- What dispatch runs stays within some footprint, which may jump for an instruction that writes `ip` only. -/
theorem runDecoded_reaches (dec : Decoded) (s : State) :
    ∃ f, (runDecoded dec s).Ends (Reaches f s) ∧ (f.jumps = true → ∃ i, dec = .instr i ∧ 8#8 ∈ implicitDestinations i) := by
  cases dec with
  | instr i =>
    refine ⟨footprint i s, ?_, fun hj => ⟨i, rfl, of_decide_eq_true hj⟩⟩
    rw [← footprint_action]
    exact (action i).run_reaches s
  | undefined u => exact ⟨systemCallFootprint, dispatchUndefined_reaches u s, nofun⟩

/-! ### The parts the units hand to each other -/

theorem Res.andThen_congr {α β : Type} {r : Res α} {f g : α → State → Res β}
    (h : ∀ a t, r = .done a t → f a t = g a t) : r.andThen f = r.andThen g := by
  cases r with
  | done a t => exact h a t rfl
  | raised e t => rfl
  | hung why => rfl

theorem Res.andThen_assoc {α β γ : Type} (r : Res α) (f : α → State → Res β) (g : β → State → Res γ) :
    (r.andThen f).andThen g = r.andThen fun a t => (f a t).andThen g := by
  cases r <;> rfl

/-- Past the write-protection check the register is writable and nothing has changed. -/
theorem checkWritable_andThen_congr {β : Type} {d : RegIdx} {s : State} {f g : Unit → State → Res β}
    (h : 2 ≤ d.toNat → f () s = g () s) : (checkWritable d s).andThen f = (checkWritable d s).andThen g := by
  rcases checkWritable_cases d s with ⟨_, hc⟩ | ⟨hd, hc⟩ <;> rw [hc]
  · rfl
  · exact h hd

/-- Past the probe the address is mapped and nothing has changed. -/
theorem memProbe_andThen_congr {β : Type} {a : Word} {s : State} {f g : Unit → State → Res β}
    (h : route s a ≠ .unmapped → f () s = g () s) : (memProbe a s).andThen f = (memProbe a s).andThen g := by
  rcases memProbe_cases a s with ⟨_, hp⟩ | ⟨hr, hp⟩ <;> rw [hp]
  · rfl
  · exact h hr

theorem memRead_done_units {a v : Word} {s t : State} (h : memRead a s = .done v t) : t.units = s.units := by
  rcases memRead_done h with ⟨_, _, rfl⟩ | ⟨_, _, _, rfl⟩ <;> rfl

theorem memWrite_done_units {a v : Word} {s t : State} (h : memWrite a v s = .done () t) : t.units = s.units := by
  rcases memWrite_done h with ⟨_, rfl⟩ | ⟨_, _, rfl⟩ <;> rfl

/-- The operand as the integrator names it. -/
def Source.port : Source → Sum RegIdx Word
  | .reg r => .inl r
  | .imm v => .inr v

/-- The data cell whose address the operand is. -/
def Source.cell : Source → Place
  | .reg r => .memByReg r
  | .imm v => .memByImm v

/-- The operand as the source of a copy. -/
def Source.operand : Source → Operand
  | .reg r => .place (.reg r)
  | .imm v => .literal v

theorem readOperand_cell (x : Source) (s : State) : readOperand (.place x.cell) s = memRead (x.value s) s := by
  cases x <;> rfl

theorem readOperand_operand (x : Source) (s : State) : readOperand x.operand s = .done (x.value s) s := by
  cases x <;> rfl

/-! ### The tables of the units (30_encoding.md R110, R112, R114) -/

theorem aluFn_eq_none_iff (op : BitVec 5) : aluFn op = none ↔ 22 ≤ op.toNat := by
  unfold aluFn
  split
  case h_23 =>
    refine iff_of_true rfl ?_
    simp only [imp_false] at *
    omega
  all_goals exact iff_of_false (Option.some_ne_none _) (by omega)

theorem cmpPredicate_eq_none_iff (op : BitVec 5) : cmpPredicate op = none ↔ 24 ≤ op.toNat := by
  unfold cmpPredicate
  split
  case h_7 =>
    refine iff_of_true rfl ?_
    simp only [imp_false] at *
    omega
  all_goals exact iff_of_false (Option.some_ne_none _) (by omega)

theorem bruResult_eq_none_iff (op : BitVec 5) (pushes : Bool) (ip pred t f : Word) :
    bruResult op pushes ip pred t f = none ↔ 17 ≤ op.toNat := by
  unfold bruResult
  split
  case h_18 =>
    refine iff_of_true rfl ?_
    simp only [imp_false] at *
    omega
  all_goals exact iff_of_false (Option.some_ne_none _) (by omega)

theorem setWidth_immediate (r : DecodedInstruction) : r.immediate.setWidth 8 = r.data1 := by
  refine BitVec.eq_of_toNat_eq ?_
  have hlow : r.data1.toNat < 256 := r.data1.isLt
  rw [BitVec.toNat_setWidth, r.toNat_immediate]
  omega

/-- The second argument of an arithmetic op code (40_arithmetic.md R131). -/
def aluArgument (r : DecodedInstruction) (s : State) : Word :=
  if 15 ≤ r.op.toNat ∧ r.op.toNat ≤ 21 then r.immediate else s.reg r.data2

/-- An arithmetic op code runs its function, whichever of the three forms the instruction has. -/
theorem runDecoded_selectArithmetic {r : DecodedInstruction} {f : ArithFn} (hf : aluFn r.op = some f) (s : State) :
    runDecoded (selectArithmetic r) s = arithmetic f r.data0 (s.reg r.data1) (aluArgument r s) s := by
  unfold aluFn at hf
  split at hf <;> cases hf
  all_goals
    rename_i hop
    simp [selectArithmetic, aluArgument, hop, runDecoded, action, Action.run, Source.value, setWidth_immediate] <;> rfl

theorem runDecoded_selectCompare {r : DecodedInstruction} {p : Word → Word → Bool} (hp : cmpPredicate r.op = some p)
    (s : State) :
    runDecoded (selectCompare r) s = compareWith p (cmpCombinator r.op) r.data1 r.data2 s := by
  have hop : r.op.toNat < 24 := by
    by_contra hge
    cases hp.symm.trans ((cmpPredicate_eq_none_iff r.op).mpr (Nat.not_lt.mp hge))
  unfold selectCompare
  split
  case h_25 =>
    simp only [imp_false] at *
    omega
  all_goals
    rename_i hop'
    simp only [cmpPredicate, hop', Option.some.injEq] at hp
    simp only [cmpCombinator, hop', ← hp]
    rfl

/-- A conditional jump as the branch that BRU makes of it: the call pushes where it is taken, or where untaken calls do. -/
theorem conditional_eq_branch (cond : Bool) (target : Word) (isCall : Bool) (s : State) :
    conditional cond target isCall s =
      branch (if cond then target else s.nextAddress) (isCall && (cond || s.config.untakenCallPushes)) s := by
  cases cond with
  | true => rw [conditional_of_taken, Bool.true_or, Bool.and_true, if_pos rfl]
  | false => rfl

/-- What a result of BRU asks for (47_functional_units.md R337), in terms of the jump primitives of 43_jump.md. -/
def runBranch : UnitResult → State → Res Unit
  | .branch ret link target, s =>
    if ret then (pop .callStack s).andThen fun v t => .done () (t.jumpTo v) else branch target link s
  | _, s => .done () s

/-- The first target of a jump op code, as the integrator offers it to BRU (47_functional_units.md R350). -/
def bruTarget (r : DecodedInstruction) (s : State) : Word :=
  if jumpImmediate r.op then r.immediate else s.reg r.data1

theorem runDecoded_selectJump {r : DecodedInstruction} {s : State} {res : UnitResult}
    (hres : bruResult r.op s.config.untakenCallPushes s.ip s.pred (bruTarget r s) (s.reg r.data2) = some res) :
    runDecoded (selectJump r) s = runBranch res s := by
  unfold bruResult at hres
  split at hres <;> cases hres
  all_goals
    rename_i hop
    simp [selectJump, bruTarget, jumpImmediate, hop, runDecoded, action, Action.run, Source.value, conditional_eq_branch,
      selectBranch, runBranch, State.nextAddress]

/-- Op 0 of the misc group is a lookup in the system-call table, for the built-ins too (44_misc_syscall.md R270). -/
theorem runDecoded_selectMisc {r : DecodedInstruction} (hop : r.op.toNat = 0) (s : State) :
    runDecoded (selectMisc r) s = systemCall r.data0 r.data1 r.data2 s := by
  unfold selectMisc
  simp only [hop]
  split
  case h_1 hsel =>
    have ht : systemCallTable s.config r.data0 = .terminate := by simp only [systemCallTable, hsel]
    exact (systemCall_terminate ht).symm
  case h_2 hsel =>
    have ht : systemCallTable s.config r.data0 = .panic := by simp only [systemCallTable, hsel]
    exact (systemCall_panic ht).symm
  case h_3 hsel =>
    have ht : systemCallTable s.config r.data0 = .putc := by simp only [systemCallTable, hsel]
    exact (systemCall_putc ht).symm
  case h_4 => rfl

/-- A jump whose advance is suppressed ends its step with `ip` at the target. -/
theorem State.finishStep_jumpTo {s : State} (herr : s.error = none) (hadv : s.advancePc = true) (a : Word) :
    (s.jumpTo a).finishStep = s.setReg ipIdx a := by
  rw [State.finishStep_of_suppressed (s := s.jumpTo a) herr rfl]
  exact State.eq_of_fields rfl rfl rfl rfl rfl rfl hadv.symm rfl rfl rfl rfl rfl rfl rfl

theorem bruResult_branch {op : BitVec 5} {pushes : Bool} {ip pred t f : Word} {res : UnitResult}
    (h : bruResult op pushes ip pred t f = some res) : ∃ ret link target, res = .branch ret link target := by
  unfold bruResult at h
  split at h <;> cases h <;> exact ⟨_, _, _, rfl⟩

/-- The instructions that write `ip` are the rows of group 3 (30_encoding.md R114). -/
theorem writes_ip_iff_group (i : Instr) : decide (8#8 ∈ implicitDestinations i) = (i.record.group == 3#3) := by
  cases i <;> rfl

theorem group_eq_three_of_jump {r : DecodedInstruction} {i : Instr} (hi : select r = .instr i)
    (hip : 8#8 ∈ implicitDestinations i) : r.group.toNat = 3 := by
  have hgroup : (r.readBy i).group = i.record.group := by rw [readBy_of_select hi]
  have htable : i.record.group = 3#3 := beq_iff_eq.mp ((writes_ip_iff_group i).symm.trans (decide_eq_true hip))
  exact congrArg BitVec.toNat (hgroup.trans htable)

/-! ### The fields the integrator relies on, which the stacks leave -/

/-- The two states agree in the units, in the latched error and in the suppression flag. -/
structure SameControl (s t : State) : Prop where
  units : t.units = s.units
  error : t.error = s.error
  advancePc : t.advancePc = s.advancePc

theorem SameControl.refl {s : State} : SameControl s s := ⟨rfl, rfl, rfl⟩

theorem pop_sameControl {k : StackId} {v : Word} {s t : State} (h : pop k s = .done v t) : SameControl s t := by
  rcases pop_cases k s with ⟨_, hc⟩ | ⟨_, hc⟩ <;> cases hc.symm.trans h
  exact ⟨rfl, rfl, rfl⟩

theorem push_sameControl {k : StackId} {v : Word} {s t : State} (h : push k v s = .done () t) : SameControl s t := by
  rcases push_cases k v s with ⟨_, hc⟩ | ⟨_, hc⟩ <;> cases hc.symm.trans h
  exact ⟨by simp, by simp, by simp⟩

theorem peek_done {k : StackId} {v : Word} {s t : State} (h : peek k s = .done v t) : t = s := by
  rcases peek_cases k s with ⟨_, hp⟩ | ⟨_, hp⟩ <;> cases hp.symm.trans h
  rfl

section Composed

variable {s : State} (h : s.units = Units.all .awaiting)
include h

theorem composeAddress_eq (x : Source) : composeAddress x.port s = .done (x.value s) s := by
  cases x with
  | reg r => exact rfRead_eq h r
  | imm v => rfl

/-! ### The stacks -/

theorem memLoad_stackPointer (k : StackId) : memLoad (stackUnit k) (s.reg (stackPointer k)) s = peek k s :=
  memLoad_stack_eq h k _

/-- The integrator stores and then moves the pointer; a push moves it first. -/
theorem composePush_eq (k : StackId) (v : Word) : composePush (stackUnit k) (stackPointer k) v s = push k v s := by
  rw [composePush, rfRead_eq h, Res.andThen_done, memStore_stack_eq h]
  rcases push_cases k v s with ⟨hsize, hp⟩ | ⟨hsize, hp⟩ <;> rw [hp]
  · exact congrArg (Res.andThen · _) (if_pos hsize)
  · refine (congrArg (Res.andThen · _) (if_neg (Nat.not_le.mpr hsize))).trans ?_
    rw [Res.andThen_done, rfWrite_eq (by simpa using h), writeReg_of_le (stackPointer_writable k), State.setMem_setReg]
    rfl

theorem composePop_eq (k : StackId) : composePop (stackUnit k) (stackPointer k) s = pop k s := by
  rw [composePop, rfRead_eq h, Res.andThen_done, memLoad_stackPointer h, pop]
  refine Res.andThen_congr fun v t hpeek => ?_
  rw [peek_done hpeek, rfWrite_eq h, writeReg_of_le (stackPointer_writable k), Res.andThen_done]

/-! ### Stage arithmetic -/

theorem composeArithmetic_eq_of_function {r : DecodedInstruction} {f : ArithFn} (hf : aluFn r.op = some f) :
    composeArithmetic r s = arithmetic f r.data0 (s.reg r.data1)
      (aluArgument r s) s := by
  have harg : (if 15 ≤ r.op.toNat ∧ r.op.toNat ≤ 21 then Res.done r.immediate s else rfRead r.data2 s) =
      .done (aluArgument r s) s := by
    rw [rfRead_eq h]
    exact (apply_ite (Res.done · s) _ _ _).symm
  have halu := unit_of_units h .alu
  simp only [composeArithmetic, rfRead_eq h r.data1, Res.andThen_done, harg]
  cases hr : f (s.reg r.data1) (aluArgument r s) with
  | none => rw [operate_alu_of_none halu hf hr, arithmetic_of_none hr, Res.andThen_raised]
  | some v =>
    rw [operate_alu_of_some halu hf hr, arithmetic_of_some hr, Res.andThen_done]
    rcases writeReg_cases r.data0 v s with ⟨hd, hw⟩ | ⟨hd, hw⟩
    · rw [checkWritable_of_lt hd, hw, Res.andThen_raised]
    · rw [checkWritable_of_le hd, Res.andThen_done, rfWrite_eq h, resultWord]

theorem composeArithmetic_eq_of_no_function {r : DecodedInstruction} (hf : aluFn r.op = none) :
    composeArithmetic r s = .raised (.notImplemented r.op) s := by
  have hop : ¬(15 ≤ r.op.toNat ∧ r.op.toNat ≤ 21) := by
    have := (aluFn_eq_none_iff r.op).mp hf
    omega
  simp only [composeArithmetic, rfRead_eq h, Res.andThen_done, if_neg hop,
    operate_alu_of_no_function (unit_of_units h .alu) hf, Res.andThen_raised]

theorem composeArithmetic_eq (r : DecodedInstruction) : composeArithmetic r s = runDecoded (selectArithmetic r) s := by
  cases hf : aluFn r.op with
  | none =>
    have herr : (selectArithmetic r).error = some (.notImplemented r.op) := by
      rw [error_selectArithmetic, if_pos ((aluFn_eq_none_iff r.op).mp hf)]
    rw [composeArithmetic_eq_of_no_function h hf, runDecoded_of_error herr nofun]
  | some f => rw [composeArithmetic_eq_of_function h hf, runDecoded_selectArithmetic hf]

/-! ### Stage compare -/

theorem composeCompare_eq (r : DecodedInstruction) : composeCompare r s = runDecoded (selectCompare r) s := by
  simp only [composeCompare, rfRead_eq h, Res.andThen_done]
  cases hp : cmpPredicate r.op with
  | none =>
    have herr : (selectCompare r).error = some (.invalidCompareOperation r.op) := by
      rw [error_selectCompare, if_pos ((cmpPredicate_eq_none_iff r.op).mp hp)]
    rw [operate_cmp_of_none (unit_of_units h .cmp) hp, Res.andThen_raised, runDecoded_of_error herr nofun]
  | some p =>
    rw [operate_cmp_of_some (unit_of_units h .cmp) hp, Res.andThen_done, rfWrite_eq h, writeReg_of_le (by decide),
      runDecoded_selectCompare hp]
    rfl

/-! ### Stage misc -/

theorem composeMisc_eq (r : DecodedInstruction) : composeMisc r s = runDecoded (selectMisc r) s := by
  by_cases hop : r.op.toNat = 0
  · have hcall : composeMisc r s = systemCall r.data0 r.data1 r.data2 s := by
      simp only [composeMisc, hop, ne_eq, not_true_eq_false, if_false, rfRead_eq h, Res.andThen_done]
      exact operate_sys_andThen_composeSystem (unit_of_units h .sys) _ _ _
    rw [hcall, runDecoded_selectMisc hop]
  · have herr : (selectMisc r).error = some (.invalidMiscOperation r.op) := by
      rw [error_selectMisc, if_pos (by omega)]
    rw [composeMisc, if_pos hop, runDecoded_of_error herr nofun]

/-! ### Stage jump: the integrator writes `ip` where the rules also suppress the advance -/

theorem rfWrite_ip_eq {t : State} (ht : SameControl s t) (herr : s.error = none) (hadv : s.advancePc = true) (v : Word) :
    rfWrite ipIdx v t = .done () (t.jumpTo v).finishStep := by
  rw [rfWrite_eq (ht.units.trans h), writeReg_of_le (by decide),
    State.finishStep_jumpTo (ht.error.trans herr) (ht.advancePc.trans hadv)]

/-- What the integrator does with a result of BRU is the branch with the end of the step after it. -/
theorem composeBranch_eq (herr : s.error = none) (hadv : s.advancePc = true) (ret link : Bool) (target : Word) :
    composeBranch s.ip (.branch ret link target) s =
      (runBranch (.branch ret link target) s).andThen fun _ t => .done () t.finishStep := by
  have hpop : composePop .memCall cspIdx s = pop .callStack s := composePop_eq h .callStack
  have hpush : composePush .memCall cspIdx (s.ip + 1#16) s = push .callStack s.nextAddress s :=
    composePush_eq h .callStack _
  cases ret with
  | true =>
    simp only [composeBranch, runBranch, if_true, hpop, Res.andThen_assoc]
    exact Res.andThen_congr fun v t ht => rfWrite_ip_eq h (pop_sameControl ht) herr hadv v
  | false =>
    cases link with
    | true =>
      simp only [composeBranch, runBranch, branch, if_true, Bool.false_eq_true, if_false, hpush, Res.andThen_assoc]
      exact Res.andThen_congr fun _ t ht => rfWrite_ip_eq h (push_sameControl ht) herr hadv target
    | false => exact rfWrite_ip_eq h .refl herr hadv target

/-- BRU's results are branches. -/
theorem composeJump_eq (herr : s.error = none) (hadv : s.advancePc = true) (r : DecodedInstruction) :
    composeJump s.ip r s = (runDecoded (selectJump r) s).andThen fun _ t => .done () t.finishStep := by
  have hbru := unit_of_units h .bru
  simp only [composeJump, rfRead_eq h, Res.andThen_done]
  cases hres : bruResult r.op s.config.untakenCallPushes s.ip s.pred (bruTarget r s) (s.reg r.data2) with
  | none =>
    have hselect : (selectJump r).error = some (.illegalJumpOperation r.op) := by
      rw [error_selectJump, if_pos ((bruResult_eq_none_iff ..).mp hres)]
    rw [runDecoded_of_error hselect nofun]
    exact congrArg (Res.andThen · _) (operate_bru_of_none hbru hres)
  | some res =>
    obtain ⟨ret, link, target, rfl⟩ := bruResult_branch hres
    rw [runDecoded_selectJump hres, ← composeBranch_eq h herr hadv]
    exact congrArg (Res.andThen · _) (operate_bru_of_some hbru hres)

/-! ### Stage move (41_move.md R169) -/

theorem memLoad_data_andThen_congr {β : Type} {a : Word} {f g : Word → State → Res β}
    (hfg : ∀ v t, memRead a s = .done v t → t.units = Units.all .awaiting → f v t = g v t) :
    (memLoad .memData a s).andThen f = (memRead a s).andThen g := by
  rw [memLoad_data_eq h]
  exact Res.andThen_congr fun v t ht => hfg v t ht ((memRead_done_units ht).trans h)

theorem memStore_data_andThen_congr {β : Type} {a v : Word} {f g : Unit → State → Res β}
    (hfg : ∀ t, t.units = Units.all .awaiting → f () t = g () t) :
    (memStore .memData a v s).andThen f = (memWrite a v s).andThen g := by
  rw [memStore_data_eq h]
  exact Res.andThen_congr fun _ t ht => hfg t ((memWrite_done_units ht).trans h)

theorem composeMove_eq (d s0 : RegIdx) : composeMove d s0 s = copyInto (.reg d) (.place (.reg s0)) s := by
  refine checkWritable_andThen_congr fun _ => ?_
  rw [rfRead_eq h, Res.andThen_done, rfWrite_eq h]
  rfl

theorem composeSet_eq (d : RegIdx) (imm : Word) :
    ((checkWritable d s).andThen fun _ t => rfWrite d imm t) = copyInto (.reg d) (.literal imm) s :=
  checkWritable_andThen_congr fun _ => rfWrite_eq h d imm

theorem composeSwap_eq (d s0 : RegIdx) : composeSwap d s0 s = swapRegisters d s0 s := by
  refine checkWritable_andThen_congr fun hd => checkWritable_andThen_congr fun _ => ?_
  rw [rfRead_eq h, Res.andThen_done, rfRead_eq h, Res.andThen_done, rfWrite_eq h, writeReg_of_le hd, Res.andThen_done,
    Res.andThen_done, rfWrite_eq (s := s.setReg d _) h]

theorem composeSwapRegisterCell_eq (d : RegIdx) (x : Source) :
    composeSwapRegisterCell d x.port s = swapRegisterCell d (x.value s) s := by
  refine checkWritable_andThen_congr fun _ => ?_
  rw [rfRead_eq h, Res.andThen_done, composeAddress_eq h, Res.andThen_done]
  refine memLoad_data_andThen_congr h fun m t _ ht => ?_
  exact memStore_data_andThen_congr ht fun u hu => rfWrite_eq hu d m

theorem composeSwapCells_eq (d : RegIdx) (x : Source) :
    composeSwapCells d x.port s = swapCells (s.reg d) (x.value s) s := by
  rw [composeSwapCells, rfRead_eq h, Res.andThen_done, composeAddress_eq h, Res.andThen_done]
  refine memProbe_andThen_congr fun _ => memProbe_andThen_congr fun _ => ?_
  refine memLoad_data_andThen_congr h fun m1 t _ ht => memLoad_data_andThen_congr ht fun m2 u _ hu => ?_
  exact memStore_data_andThen_congr hu fun w hw => memStore_data_eq hw _ m1

theorem composeLoad_eq (d : RegIdx) (x : Source) : composeLoad d x.port s = copyInto (.reg d) (.place x.cell) s := by
  refine checkWritable_andThen_congr fun _ => ?_
  rw [composeAddress_eq h, Res.andThen_done, readOperand_cell]
  exact memLoad_data_andThen_congr h fun v t _ ht => rfWrite_eq ht d v

/-- The integrator does not probe before a store: MEM.data raises what the probe would. -/
theorem composeStore_eq (d : RegIdx) (x : Source) : composeStore d x.port s = copyInto (.memByReg d) x.operand s := by
  rw [composeStore, rfRead_eq h, Res.andThen_done, composeAddress_eq h, Res.andThen_done, memStore_data_eq h, copyInto,
    admitPlace]
  rcases memProbe_cases (s.reg d) s with ⟨hr, hp⟩ | ⟨_, hp⟩ <;> rw [hp]
  · exact memWrite_of_unmapped hr _
  · rw [Res.andThen_done, readOperand_operand, Res.andThen_done, writePlace]

theorem composeCopy_eq (d : RegIdx) (x : Source) : composeCopy d x.port s = copyInto (.memByReg d) (.place x.cell) s := by
  rw [composeCopy, rfRead_eq h, Res.andThen_done, composeAddress_eq h, Res.andThen_done]
  refine memProbe_andThen_congr fun _ => ?_
  rw [readOperand_cell]
  refine memLoad_data_andThen_congr h fun v t hread ht => ?_
  rw [memStore_data_eq ht, writePlace, memRead_done_reg hread]

theorem composePopInto_eq (d : RegIdx) :
    ((checkWritable d s).andThen fun _ s1 => (composePop .memStack spIdx s1).andThen fun v s2 => rfWrite d v s2) =
      (Action.pop d).run s := by
  refine checkWritable_andThen_congr fun _ => ?_
  refine (congrArg (Res.andThen · _) (composePop_eq h .dataStack)).trans ?_
  exact Res.andThen_congr fun v t ht => rfWrite_eq ((pop_sameControl ht).units.trans h) d v

theorem composePeekInto_eq (d : RegIdx) :
    ((checkWritable d s).andThen fun _ s1 =>
      (rfRead spIdx s1).andThen fun p s2 => (memLoad .memStack p s2).andThen fun v s3 => rfWrite d v s3) =
      (Action.peek d).run s := by
  refine checkWritable_andThen_congr fun _ => ?_
  rw [rfRead_eq h, Res.andThen_done]
  refine (congrArg (Res.andThen · _) (memLoad_stackPointer h .dataStack)).trans ?_
  refine Res.andThen_congr fun v t ht => ?_
  rw [peek_done ht, rfWrite_eq h]

theorem composeMoveGroup_eq (r : DecodedInstruction) : composeMoveGroup r s = runDecoded (selectMove r) s := by
  unfold composeMoveGroup
  split
  case h_18 =>
    have herr : (selectMove r).error = some (.invalidMoveOperation r.op) := by
      rw [error_selectMove, if_pos (by simp only [imp_false] at *; omega)]
    exact (runDecoded_of_error herr nofun s).symm
  all_goals
    rename_i hop
    simp only [selectMove, hop]
  · exact composeMove_eq h _ _
  · exact composeSwap_eq h _ _
  · exact composeSwapRegisterCell_eq h _ (.reg _)
  · exact composeSwapCells_eq h _ (.reg _)
  · exact composeSwapRegisterCell_eq h _ (.imm _)
  · exact composeSwapCells_eq h _ (.imm _)
  · exact composeSet_eq h _ _
  · exact composeLoad_eq h _ (.reg _)
  · exact composeLoad_eq h _ (.imm _)
  · exact composeStore_eq h _ (.reg _)
  · exact composeCopy_eq h _ (.reg _)
  · exact composeCopy_eq h _ (.imm _)
  · exact composeStore_eq h _ (.imm _)
  · rw [rfRead_eq h]
    exact composePush_eq h .dataStack _
  · exact composePush_eq h .dataStack _
  · exact composePopInto_eq h _
  · exact composePeekInto_eq h _

/-! ### Stages dispatch and advance -/

theorem composeDispatch_eq {r : DecodedInstruction} (hgroup : r.group.toNat ≠ 3) (ip : Word) :
    composeDispatch ip r s = runDecoded (select r) s := by
  unfold composeDispatch
  split
  case h_6 =>
    have hge : 5 ≤ r.group.toNat := by
      simp only [imp_false] at *
      omega
    have herr : (select r).error = some (.indexOutOfRange .group r.group.toNat) := by
      rw [error_select, undefinedEncoding, if_pos hge]
    exact (runDecoded_of_error herr nofun s).symm
  all_goals
    rename_i hg
    simp only [select, hg]
  · exact composeArithmetic_eq h r
  · exact composeMoveGroup_eq h r
  · exact composeCompare_eq h r
  · exact absurd hg hgroup
  · exact composeMisc_eq h r

/-- The composed advance is that of a step which no jump has suppressed. -/
theorem composeAdvance_eq {r : DecodedInstruction} (hgroup : r.group.toNat ≠ 3) (herr : s.error = none)
    (hadv : s.advancePc = true) : composeAdvance r s = .done () s.finishStep := by
  rw [composeAdvance, if_neg hgroup, rfRead_eq h, Res.andThen_done, rfWrite_eq h, writeReg_of_le (by decide),
    State.finishStep_of_advances herr hadv]

theorem composeDispatch_andThen_composeAdvance (herr : s.error = none) (hadv : s.advancePc = true)
    (r : DecodedInstruction) :
    ((composeDispatch s.ip r s).andThen fun _ t => composeAdvance r t) =
      (runDecoded (select r) s).andThen fun _ t => .done () t.finishStep := by
  by_cases hgroup : r.group.toNat = 3
  · have hselect : select r = selectJump r := by simp only [select, hgroup]
    have hdispatch : composeDispatch s.ip r s = composeJump s.ip r s := by simp only [composeDispatch, hgroup]
    have hadvance : ∀ t, composeAdvance r t = .done () t := fun t => if_pos hgroup
    rw [hselect, hdispatch, composeJump_eq h herr hadv, Res.andThen_assoc]
    simp only [hadvance, Res.andThen_done]
  · rw [composeDispatch_eq h hgroup]
    refine Res.andThen_congr fun _ t ht => ?_
    obtain ⟨f, hends, hjumps⟩ := runDecoded_reaches (select r) s
    rw [ht, Res.ends_done] at hends
    obtain ⟨-, hunits, -, herr', -⟩ := hends.fixed
    have hj : f.jumps = false := Bool.eq_false_iff.mpr fun hj => by
      obtain ⟨i, hi, hip⟩ := hjumps hj
      exact hgroup (group_eq_three_of_jump hi hip)
    exact composeAdvance_eq (hunits.trans h) hgroup (herr'.trans herr) ((hends.advancePc_of_not_jumps hj).trans hadv)

/-- The composed instruction, begun, ends as the step does (47_functional_units.md R350, R352). -/
theorem outcome_composeInstruction (herr : s.error = none) (hadv : s.advancePc = true) :
    (composeInstruction s).outcome =
      (((fetch s).andThen fun w t => (runDecoded (decode w) t).andThen fun _ u => .done () u.finishStep)).outcome := by
  rw [composeInstruction, rfRead_eq h, Res.andThen_done, memCodeLoad_eq h]
  refine congrArg Res.outcome (Res.andThen_congr fun w t ht => ?_)
  obtain rfl : t = s := by
    rcases fetch_cases s with ⟨_, hf⟩ | hf <;> cases hf.symm.trans ht
    rfl
  rw [decDecode_eq h, Res.andThen_done]
  exact composeDispatch_andThen_composeAdvance h herr hadv _

end Composed

/-! ### The composed step -/

/-- A step as one sequence of operations, with the end of the step inside it. -/
theorem runStep_eq_outcome (s : State) :
    runStep s = (((fetch s.beginStep).andThen fun w t =>
      (runDecoded (decode w) t).andThen fun _ u => .done () u.finishStep)).outcome := by
  rw [runStep]
  rcases fetch_cases s.beginStep with ⟨w, hf⟩ | hf <;> rw [hf]
  · refine (dispatchDecoded_eq_run (decode w) s.beginStep).trans ?_
    rw [Res.andThen_done]
    cases runDecoded (decode w) s.beginStep <;> rfl
  · rfl

theorem composedStep_of_running {s : State} (hrun : s.running = true) :
    composedStep s = mapNext State.settleUnits (composeInstruction s.beginStep).outcome := by
  rw [composedStep, if_pos hrun]
  cases composeInstruction s.beginStep <;> rfl

/-- Settling a core whose units all wait stops them if it has halted. -/
theorem State.settleUnits_of_awaiting {t : State} (h : t.units = Units.all .awaiting) :
    t.settleUnits = if t.halted then { t with units := Units.all .created } else t := by
  rw [State.settleUnits, State.stopUnits_of_awaiting h]

end Sys2Proof.Machine
end

section
open Sys2Proof Sys2Proof.Machine Sys2Proof.Statements

/-- Settles O60: stage by stage the units do what the decoded cell's action does, so the composed instruction ends as the step
does; the step leaves the units as they are, so they all wait when the integrator settles them. -/
theorem compositionRefinesStep : Obligations.CompositionRefinesStep := by
  intro s hunits hrun
  have herr : s.beginStep.error = none := ((State.running_iff s).mp hrun).2
  have hsame : (composeInstruction s.beginStep).outcome = step s := by
    rw [outcome_composeInstruction (s := s.beginStep) hunits herr rfl, step, if_pos hrun, runStep_eq_outcome]
  rw [composedStep_of_running hrun, hsame]
  cases hstep : step s with
  | next t =>
    obtain ⟨-, -, hunits'⟩ := stepKeepsConfigurationAndCode s t hstep
    exact congrArg Host.Outcome.next (State.settleUnits_of_awaiting (hunits'.trans hunits))
  | fault why => rfl
  | refused why => rfl

end

section
/-! PROOFS. What blocks an instruction (47_functional_units.md R354; log 6): an operation hangs only where a device never answers,
and only at an address the operation names. -/

namespace Sys2Proof.Machine

open Sys2Proof.Statements

/-! ### An access to a silent device -/

theorem callDevice_of_never {dev : Device} {p : IoAccess} {s : State} (h : deviceAnswer dev s.io p = .never) :
    callDevice dev p s = .hung (.deviceNeverAnswers (accessAddress p)) := by
  rw [callDevice, h]

theorem memRead_of_silent {a : Word} {s : State} (h : SilentAt (.load a) s) :
    memRead a s = .hung (.deviceNeverAnswers a) := by
  obtain ⟨dev, ha, hl, hnever⟩ := h
  have hroute : route s a = .device dev := route_of_device ha hl
  rw [memRead_of_device hroute, callDevice_of_never hnever, accessAddress]

theorem memWrite_of_silent {a v : Word} {s : State} (h : SilentAt (.store a v) s) :
    memWrite a v s = .hung (.deviceNeverAnswers a) := by
  obtain ⟨dev, ha, hl, hnever⟩ := h
  have hroute : route s a = .device dev := route_of_device ha hl
  rw [memWrite_of_device hroute, callDevice_of_never hnever, Res.andThen_hung, accessAddress]

/-- A silent device claims its address. -/
theorem mapped_of_silent {p : IoAccess} {s : State} (h : SilentAt p s) : Mapped (accessAddress p) s := by
  obtain ⟨dev, _, hl, _⟩ := h
  exact .inr (hl ▸ Option.some_ne_none dev)

/-- Past the probe of a mapped address nothing has changed. -/
theorem memProbe_andThen_of_mapped {β : Type} {a : Word} {s : State} (h : Mapped a s) (f : Unit → State → Res β) :
    (memProbe a s).andThen f = f () s := by
  rw [memProbe_of_mapped (route_ne_unmapped_of_mapped h), Res.andThen_done]

section Silent

variable {i : Instr} {d : RegIdx} {x : Source} {s : State}

theorem exec_load_of_silent (hi : action i = .copy (.reg d) (.place x.cell)) (hd : 2 ≤ d.toNat)
    (h : SilentAt (.load (x.value s)) s) : exec i s = .fault (.deviceNeverAnswers (x.value s)) := by
  rw [exec_eq_run, hi, Action.run, copyInto, admitPlace, outcome_checkWritable_of_le hd, readOperand_cell,
    memRead_of_silent h, Res.andThen_hung, Res.outcome_hung]

theorem exec_swapRegisterCell_of_silent (hi : action i = .swapRegisterCell d x) (hd : 2 ≤ d.toNat)
    (h : SilentAt (.load (x.value s)) s) : exec i s = .fault (.deviceNeverAnswers (x.value s)) := by
  rw [exec_eq_run, hi, Action.run, swapRegisterCell, outcome_checkWritable_of_le hd, memRead_of_silent h,
    Res.andThen_hung, Res.outcome_hung]

theorem exec_store_of_silent (hi : action i = .copy (.memByReg d) x.operand)
    (h : SilentAt (.store (s.reg d) (x.value s)) s) : exec i s = .fault (.deviceNeverAnswers (s.reg d)) := by
  rw [exec_eq_run, hi, Action.run, copyInto, admitPlace, memProbe_andThen_of_mapped (a := s.reg d) (mapped_of_silent h),
    readOperand_operand, Res.andThen_done, writePlace, memWrite_of_silent h, Res.outcome_hung]

theorem exec_copy_of_silent (hi : action i = .copy (.memByReg d) (.place x.cell)) (hd : Mapped (s.reg d) s)
    (h : SilentAt (.load (x.value s)) s) : exec i s = .fault (.deviceNeverAnswers (x.value s)) := by
  rw [exec_eq_run, hi, Action.run, copyInto, admitPlace, memProbe_andThen_of_mapped hd, readOperand_cell,
    memRead_of_silent h, Res.andThen_hung, Res.outcome_hung]

theorem exec_swapCells_of_silent (hi : action i = .swapCells d x) (hx : Mapped (x.value s) s)
    (h : SilentAt (.load (s.reg d)) s) : exec i s = .fault (.deviceNeverAnswers (s.reg d)) := by
  rw [exec_eq_run, hi, Action.run, swapCells, memProbe_andThen_of_mapped (a := s.reg d) (mapped_of_silent h),
    memProbe_andThen_of_mapped hx, memRead_of_silent h, Res.andThen_hung, Res.outcome_hung]

end Silent

/-! ### Nothing else hangs -/

/-- The operation hangs, if it does, at one of `addresses`, on a device that the configuration puts there. -/
def Res.HangsAt {α : Type} (c : Config) (addresses : List Word) (r : Res α) : Prop :=
  ∀ why, r = .hung why →
    ∃ a ∈ addresses, why = .deviceNeverAnswers a ∧ c.dataSize ≤ a.toNat ∧ registryLookup c.devices a ≠ none

section Hangs

variable {α β : Type} {c : Config} {as : List Word} {s : State}

theorem Res.HangsAt.done {a : α} : (Res.done a s).HangsAt c as := nofun

theorem Res.HangsAt.raised {e : Error} : (Res.raised e s : Res α).HangsAt c as := nofun

theorem Res.HangsAt.andThen {r : Res α} {g : α → State → Res β} (hr : r.HangsAt c as)
    (hg : ∀ a t, r = .done a t → (g a t).HangsAt c as) : (r.andThen g).HangsAt c as := by
  cases r with
  | done a t => exact hg a t rfl
  | raised e t => exact .raised
  | hung why => exact fun why' h => hr why' (congrArg Res.hung (Res.hung.inj h))

/-- An access hangs at its own address. -/
theorem callDevice_hangsAt {dev : Device} {p : IoAccess} (hp : accessAddress p ∈ as)
    (ha : s.config.dataSize ≤ (accessAddress p).toNat) (hl : registryLookup s.config.devices (accessAddress p) = some dev) :
    (callDevice dev p s).HangsAt s.config as := by
  rcases callDevice_cases dev p s with ⟨v, _, hc⟩ | ⟨e, _, hc⟩ | ⟨_, hc⟩ <;> rw [hc]
  · exact .done
  · exact .raised
  · rintro why ⟨⟩
    exact ⟨_, hp, rfl, ha, hl ▸ Option.some_ne_none dev⟩

theorem memRead_hangsAt {a : Word} (ha : a ∈ as) (hs : s.config = c) : (memRead a s).HangsAt c as := by
  subst hs
  unfold memRead
  rcases route_cases s a with ⟨_, hr⟩ | ⟨hio, dev, hl, hr⟩ | ⟨_, _, hr⟩ <;> rw [hr]
  · exact .done
  · exact callDevice_hangsAt (p := .load a) ha hio hl
  · exact .raised

theorem memWrite_hangsAt {a : Word} (ha : a ∈ as) (hs : s.config = c) (v : Word) : (memWrite a v s).HangsAt c as := by
  subst hs
  unfold memWrite
  rcases route_cases s a with ⟨_, hr⟩ | ⟨hio, dev, hl, hr⟩ | ⟨_, _, hr⟩ <;> rw [hr]
  · exact .done
  · exact .andThen (callDevice_hangsAt (p := .store a v) ha hio hl) fun _ _ _ => .done
  · exact .raised

theorem checkWritable_hangsAt (i : RegIdx) : (checkWritable i s).HangsAt c as := by
  rcases checkWritable_cases i s with ⟨_, h⟩ | ⟨_, h⟩ <;> rw [h] <;> nofun

theorem writeReg_hangsAt (i : RegIdx) (v : Word) : (writeReg i v s).HangsAt c as := by
  rcases writeReg_cases i v s with ⟨_, h⟩ | ⟨_, h⟩ <;> rw [h] <;> nofun

theorem memProbe_hangsAt (a : Word) : (memProbe a s).HangsAt c as := by
  rcases memProbe_cases a s with ⟨_, h⟩ | ⟨_, h⟩ <;> rw [h] <;> nofun

theorem push_hangsAt (k : StackId) (v : Word) : (push k v s).HangsAt c as := by
  rcases push_cases k v s with ⟨_, h⟩ | ⟨_, h⟩ <;> rw [h] <;> nofun

theorem peek_hangsAt (k : StackId) : (peek k s).HangsAt c as := by
  rcases peek_cases k s with ⟨_, h⟩ | ⟨_, h⟩ <;> rw [h] <;> nofun

theorem pop_hangsAt (k : StackId) : (pop k s).HangsAt c as := by
  rcases pop_cases k s with ⟨_, h⟩ | ⟨_, h⟩ <;> rw [h] <;> nofun

theorem branch_hangsAt (addr : Word) (isCall : Bool) : (branch addr isCall s).HangsAt c as := by
  rcases branch_cases addr isCall s with ⟨_, _, h⟩ | ⟨_, _, h⟩ | ⟨_, h⟩ <;> rw [h] <;> nofun

theorem arithmetic_hangsAt (f : ArithFn) (d : RegIdx) (a b : Word) : (arithmetic f d a b s).HangsAt c as := by
  rcases arithmetic_cases f d a b s with ⟨_, h⟩ | ⟨_, _, _, h⟩ | ⟨_, _, _, h⟩ <;> rw [h] <;> nofun

theorem checkWritable_done {i : RegIdx} {t : State} (h : checkWritable i s = .done () t) : t = s :=
  admitPlace_done (p := .reg i) h

theorem memProbe_done {a : Word} {t : State} (h : memProbe a s = .done () t) : t = s :=
  admitPlace_done (p := .memByImm a) h

theorem memRead_done_config {a v : Word} {t : State} (h : memRead a s = .done v t) : t.config = s.config := by
  rcases memRead_done h with ⟨_, _, rfl⟩ | ⟨_, _, _, rfl⟩ <;> rfl

theorem memWrite_done_config {a v : Word} {t : State} (h : memWrite a v s = .done () t) : t.config = s.config := by
  rcases memWrite_done h with ⟨_, rfl⟩ | ⟨_, _, rfl⟩ <;> rfl

theorem readOperand_done_config {o : Operand} {v : Word} {t : State} (h : readOperand o s = .done v t) :
    t.config = s.config := by
  rcases o with (b | b | imm) | imm
  · cases h; rfl
  · exact memRead_done_config h
  · exact memRead_done_config h
  · cases h; rfl

theorem admitPlace_hangsAt (p : Place) : (admitPlace p s).HangsAt c as := by
  cases p with
  | reg b => exact checkWritable_hangsAt b
  | memByReg b | memByImm b => exact memProbe_hangsAt _

theorem readOperand_hangsAt {o : Operand} (ho : ∀ a ∈ o.addresses s, a ∈ as) (hs : s.config = c) :
    (readOperand o s).HangsAt c as := by
  rcases o with (b | b | imm) | imm
  · exact .done
  · exact memRead_hangsAt (ho _ (List.mem_singleton_self _)) hs
  · exact memRead_hangsAt (ho _ (List.mem_singleton_self _)) hs
  · exact .done

theorem writePlace_hangsAt {p : Place} (hp : ∀ a ∈ p.addresses s, a ∈ as) (hs : s.config = c) (v : Word) :
    (writePlace p v s).HangsAt c as := by
  cases p with
  | reg b => exact writeReg_hangsAt b v
  | memByReg b | memByImm b => exact memWrite_hangsAt (hp _ (List.mem_singleton_self _)) hs v

end Hangs

theorem copyInto_hangsAt (dst : Place) (src : Operand) (s : State) :
    (copyInto dst src s).HangsAt s.config (dst.addresses s ++ src.addresses s) := by
  refine .andThen (admitPlace_hangsAt dst) fun _ t ht => ?_
  cases admitPlace_done ht
  refine .andThen (readOperand_hangsAt (fun a ha => List.mem_append_right _ ha) rfl) fun v u hu => ?_
  refine writePlace_hangsAt (fun a ha => List.mem_append_left _ ?_) (readOperand_done_config hu) v
  rwa [Place.addresses_congr (readOperand_done_reg hu) dst] at ha

theorem swapRegisterCell_hangsAt (d : RegIdx) (a : Word) (s : State) :
    (swapRegisterCell d a s).HangsAt s.config [a] := by
  have ha : a ∈ [a] := List.mem_singleton_self a
  refine .andThen (checkWritable_hangsAt d) fun _ t ht => ?_
  cases checkWritable_done ht
  refine .andThen (memRead_hangsAt ha rfl) fun v u hu => ?_
  exact .andThen (memWrite_hangsAt ha (memRead_done_config hu) _) fun _ _ _ => writeReg_hangsAt d v

theorem swapCells_hangsAt (a1 a2 : Word) (s : State) : (swapCells a1 a2 s).HangsAt s.config [a1, a2] := by
  have h1 : a1 ∈ [a1, a2] := List.mem_cons_self
  have h2 : a2 ∈ [a1, a2] := List.mem_cons_of_mem _ (List.mem_singleton_self a2)
  refine .andThen (memProbe_hangsAt a1) fun _ t ht => ?_
  cases memProbe_done ht
  refine .andThen (memProbe_hangsAt a2) fun _ t ht => ?_
  cases memProbe_done ht
  refine .andThen (memRead_hangsAt h1 rfl) fun m1 t ht => ?_
  have hconfigt := memRead_done_config ht
  refine .andThen (memRead_hangsAt h2 hconfigt) fun m2 u hu => ?_
  have hconfigu := (memRead_done_config hu).trans hconfigt
  refine .andThen (memWrite_hangsAt h1 hconfigu m2) fun _ w hw => ?_
  exact memWrite_hangsAt h2 ((memWrite_done_config hw).trans hconfigu) m1

/-- Every action hangs at the data addresses of its footprint only. -/
theorem Action.run_hangsAt (a : Action) (s : State) : (a.run s).HangsAt s.config (a.footprint s).addresses := by
  cases a with
  | copy dst src => exact copyInto_hangsAt dst src s
  | swapRegisterCell d cell => exact swapRegisterCell_hangsAt d _ s
  | swapCells d cell => exact swapCells_hangsAt _ _ s
  | arithmetic f d x y => exact arithmetic_hangsAt f d _ _
  | swapRegisters d s0 =>
    exact .andThen (checkWritable_hangsAt d) fun _ _ _ => .andThen (checkWritable_hangsAt s0) fun _ _ _ =>
      .andThen (writeReg_hangsAt d _) fun _ _ _ => writeReg_hangsAt s0 _
  | push v => exact push_hangsAt _ _
  | pop d =>
    exact .andThen (checkWritable_hangsAt d) fun _ _ _ => .andThen (pop_hangsAt _) fun v _ _ => writeReg_hangsAt d v
  | peek d =>
    exact .andThen (checkWritable_hangsAt d) fun _ _ _ => .andThen (peek_hangsAt _) fun v _ _ => writeReg_hangsAt d v
  | branch target isCall => exact branch_hangsAt _ isCall
  | conditional sense target isCall =>
    rw [Action.run, conditional_eq_branch]
    exact branch_hangsAt _ _
  | select sense s0 s1 isCall => exact branch_hangsAt _ isCall
  | ret => exact .andThen (pop_hangsAt _) fun _ _ _ => .done
  | compare | terminate | putc => exact .done
  | panic => exact .raised

/-! ### Faults of an instruction and of a step -/

theorem Res.outcome_eq_fault {r : Res Unit} {why : Fault} : r.outcome = .fault why ↔ r = .hung why := by
  cases r <;> simp [Res.outcome]

theorem Res.outcome_ne_refused (r : Res Unit) (why : Refusal) : r.outcome ≠ .refused why := by
  cases r <;> nofun

theorem exec_fault {i : Instr} {s : State} {why : Fault} (h : exec i s = .fault why) :
    ∃ a ∈ dataAddresses i s, why = .deviceNeverAnswers a ∧ s.config.dataSize ≤ a.toNat ∧
      registryLookup s.config.devices a ≠ none := by
  rw [exec_eq_run, Res.outcome_eq_fault] at h
  have haddresses : ((action i).footprint s).addresses = dataAddresses i s :=
    congrArg Footprint.addresses (footprint_action i s)
  exact haddresses ▸ (action i).run_hangsAt s why h

theorem mapNext_eq_fault {f : State → State} {o : Result} {why : Fault} : mapNext f o = .fault why ↔ o = .fault why := by
  cases o <;> simp [mapNext]

/-- Dispatch of an undefined encoding never blocks. -/
theorem dispatchUndefined_ne_hung (u : Undefined) (s : State) (why : Fault) : dispatchUndefined u s ≠ .hung why := by
  cases u with
  | systemCommand sel s0 s1 =>
    change systemCall sel s0 s1 s ≠ _
    rcases systemCall_cases sel s0 s1 s with ⟨_, _, _, h⟩ | ⟨_, h⟩ | ⟨_, h⟩ <;> rw [h] <;> nofun
  | _ => nofun

/-- The data addresses of an instruction are the same once its step has begun. -/
theorem dataAddresses_beginStep (i : Instr) (s : State) : dataAddresses i s.beginStep = dataAddresses i s := by
  cases i <;> rfl

theorem step_fault {s : State} {why : Fault} (h : step s = .fault why) :
    ∃ i, fetchesInstr s i ∧ ∃ a ∈ dataAddresses i s, why = .deviceNeverAnswers a := by
  cases hrun : s.running with
  | false => cases (step_of_not_running hrun).symm.trans h
  | true =>
    rcases Nat.lt_or_ge s.ip.toNat s.config.codeSize with hip | hip
    · rw [step_of_fetch_done hrun hip] at h
      cases hdec : decode (s.code.readCell s.ip.toNat) with
      | instr i =>
        rw [hdec, dispatchDecoded_instr, mapNext_eq_fault] at h
        obtain ⟨a, ha, hwhy, -⟩ := exec_fault h
        exact ⟨i, fetchesInstr_of_decode hip hdec, a, dataAddresses_beginStep i s ▸ ha, hwhy⟩
      | undefined u =>
        rw [hdec, dispatchDecoded_undefined, mapNext_eq_fault, Res.outcome_eq_fault] at h
        exact absurd h (dispatchUndefined_ne_hung u _ why)
    · cases (step_of_fetch_raised hrun hip).symm.trans h

theorem exec_ne_refused (i : Instr) (s : State) (why : Refusal) : exec i s ≠ .refused why := by
  rw [exec_eq_run]
  exact Res.outcome_ne_refused _ why

theorem step_ne_refused (s : State) (why : Refusal) : step s ≠ .refused why := by
  cases hrun : s.running with
  | false => rw [step_of_not_running hrun]; nofun
  | true =>
    rw [step, if_pos hrun, runStep_eq_outcome]
    exact Res.outcome_ne_refused _ why

end Sys2Proof.Machine
end

section
open Sys2Proof Sys2Proof.Machine Sys2Proof.Statements

/-- Settles O44: each of the five shapes of data access hangs at a silent device; and the hangs of an action lie at the data
addresses of its footprint. -/
theorem onlySilentDevicesBlock : Obligations.OnlySilentDevicesBlock := by
  refine ⟨fun d s0 imm s => ⟨fun hd h => ⟨?_, ?_⟩, fun hd h => ⟨?_, ?_⟩, fun h => ?_, fun h => ?_, fun hd h => ?_,
    fun hd h => ?_, fun hx h => ?_, fun hx h => ?_⟩,
    fun _ _ _ => exec_fault, fun _ _ => step_fault, fun i s why => ⟨exec_ne_refused i s why, step_ne_refused s why⟩⟩
  · exact exec_load_of_silent (x := .reg s0) rfl hd h
  · exact exec_swapRegisterCell_of_silent (x := .reg s0) rfl hd h
  · exact exec_load_of_silent (x := .imm imm) rfl hd h
  · exact exec_swapRegisterCell_of_silent (x := .imm imm) rfl hd h
  · exact exec_store_of_silent (x := .reg s0) rfl h
  · exact exec_store_of_silent (x := .imm imm) rfl h
  · exact exec_copy_of_silent (x := .reg s0) rfl hd h
  · exact exec_copy_of_silent (x := .imm imm) rfl hd h
  · exact exec_swapCells_of_silent (x := .reg s0) rfl hx h
  · exact exec_swapCells_of_silent (x := .imm imm) rfl hx h

end

section
/-! PROOFS. A unit as an agent (47_functional_units.md R320 to R331): one equation for each event in each phase, and what every
event keeps, whichever unit moves next. -/

namespace Sys2Proof.Machine

open Sys2Proof.Statements

/-! ### Start and Stop (R323, R324) -/

section Control

variable {u : UnitId} {s : State}

theorem unitEvent_start_of_idle (h : (s.unit u).phase = .idle) :
    unitEvent u .start s = .happened (some .ok) none (s.setUnit u .awaiting) := by
  simp only [unitEvent, unitStart, h]

theorem unitEvent_start_of_running (h : (s.unit u).phase ≠ .idle) (hs : (s.unit u).stopping = false) :
    unitEvent u .start s = .happened (some (.failed .unitAlreadyRunning)) none s := by
  change unitStart u s = _
  unfold unitStart
  split
  · contradiction
  · rw [hs, if_neg Bool.false_ne_true]

theorem unitEvent_start_of_stopping (h : (s.unit u).phase ≠ .idle) (hs : (s.unit u).stopping = true) :
    unitEvent u .start s = .waits := by
  change unitStart u s = _
  unfold unitStart
  split
  · contradiction
  · rw [hs, if_pos rfl]

theorem unitEvent_stop_of_idle (h : (s.unit u).phase = .idle) :
    unitEvent u .stop s = .happened (some (.failed .unitNotRunning)) none s := by
  simp only [unitEvent, unitStop, h]

/-- A Stop discards an incomplete operation. -/
theorem unitEvent_stop_of_incomplete (h : (s.unit u).phase ≠ .idle) (ho : ∀ o, (s.unit u).phase ≠ .emit o) :
    unitEvent u .stop s = .happened (some .ok) none (s.setUnit u .created) := by
  change unitStop u s = _
  unfold unitStop
  split
  · contradiction
  · next o hemit => exact absurd hemit (ho o)
  · rfl

theorem unitEvent_stop_of_emit {o : UnitOutcome} (h : (s.unit u).phase = .emit o) :
    unitEvent u .stop s = if (s.unit u).stopping then .waits
      else .happened none none (s.setUnit u { s.unit u with stopping := true }) := by
  simp only [unitEvent, unitStop, h]

end Control

/-! ### Offers a unit is not ready for wait (R322, R325, R328) -/

section Waiting

variable {u : UnitId} {s : State}

theorem unitEvent_operation_waits (h : (s.unit u).phase ≠ .awaitOp) (code : BitVec 8) :
    unitEvent u (.operation code) s = .waits := by
  change unitOperation u code s = _
  unfold unitOperation
  split
  · contradiction
  · rfl

theorem unitEvent_operand_waits (h : ∀ code got, (s.unit u).phase ≠ .awaitOperand code got) (i : Nat) (v : BitVec 32) :
    unitEvent u (.operand i v) s = .waits := by
  change unitOperand u i v s = _
  unfold unitOperand
  split
  · next hphase => exact absurd hphase (h _ _)
  · rfl

theorem unitEvent_takeResult_waits (h : ∀ r, (s.unit u).phase ≠ .emit (.result r)) :
    unitEvent u .takeResult s = .waits := by
  change unitTakeResult u s = _
  unfold unitTakeResult
  split
  · next hphase => exact absurd hphase (h _)
  · rfl

theorem unitEvent_takeError_waits (h : ∀ e, (s.unit u).phase ≠ .emit (.error e)) :
    unitEvent u .takeError s = .waits := by
  change unitTakeError u s = _
  unfold unitTakeError
  split
  · next hphase => exact absurd hphase (h _)
  · rfl

end Waiting

/-! ### An operation: code, operands, outcome (R325, R326) -/

section Operation

variable {u : UnitId} {s : State} {code : BitVec 8} {got : List (BitVec 32)}

theorem unitEvent_operation_of_awaiting (h : s.unit u = .awaiting) (hacc : unitAccepts u code s = true) :
    unitEvent u (.operation code) s = .happened none none (s.setUnit u (.receiving code [])) := by
  simp only [unitEvent, unitOperation, h, UnitState.awaiting, hacc, if_true]
  rfl

theorem unitEvent_operand_out_of_order (h : s.unit u = .receiving code got) {i : Nat} (hi : i ≠ got.length + 1)
    (v : BitVec 32) : unitEvent u (.operand i v) s = .waits := by
  simp only [unitEvent, unitOperand, h, UnitState.receiving, hi, false_and, if_false]

theorem unitEvent_operand_of_more (h : s.unit u = .receiving code got) (hacc : unitAccepts u code s = true)
    (hmore : got.length + 1 ≠ unitArity u) (v : BitVec 32) :
    unitEvent u (.operand (got.length + 1) v) s = .happened none none (s.setUnit u (.receiving code (got ++ [v]))) := by
  simp only [unitEvent, unitOperand, h, UnitState.receiving, hacc, and_self, if_true, if_neg hmore]

theorem unitEvent_last_operand (h : s.unit u = .receiving code got) (hacc : unitAccepts u code s = true)
    (hlast : got.length + 1 = unitArity u) (v : BitVec 32) :
    unitEvent u (.operand (got.length + 1) v) s = unitComplete u code (got ++ [v]) s := by
  simp only [unitEvent, unitOperand, h, UnitState.receiving, hacc, and_self, if_true, if_pos hlast]

/-- The computation leaves the unit as it was, so its outcome is all that is new about it. -/
theorem unitComplete_of_done {args : List (BitVec 32)} {r : UnitResult} {t : State} (h : s.unit u = .receiving code got)
    (hc : unitCompute u code args s = .done r t) :
    unitComplete u code args s = .happened none none (t.setUnit u (.offering (.result r))) := by
  have hunit : t.unit u = s.unit u := congrArg (·.get u) (unitCompute_units.1 r hc)
  simp only [unitComplete, hc, hunit, h]
  rfl

theorem unitComplete_of_raised {args : List (BitVec 32)} {e : Error} {t : State} (h : s.unit u = .receiving code got)
    (hc : unitCompute u code args s = .raised e t) :
    unitComplete u code args s = .happened none none (t.setUnit u (.offering (.error e))) := by
  have hunit : t.unit u = s.unit u := congrArg (·.get u) (unitCompute_units.2 e hc)
  simp only [unitComplete, hc, hunit, h]
  rfl

theorem unitEvent_takeResult_of_emit {r : UnitResult} (h : (s.unit u).phase = .emit (.result r)) :
    unitEvent u .takeResult s = unitTaken u (.result r) s := by
  simp only [unitEvent, unitTakeResult, h]

theorem unitEvent_takeError_of_emit {e : Error} (h : (s.unit u).phase = .emit (.error e)) :
    unitEvent u .takeError s = unitTaken u (.error e) s := by
  simp only [unitEvent, unitTakeError, h]

theorem unitTaken_of_not_stopping (hs : (s.unit u).stopping = false) (o : UnitOutcome) :
    unitTaken u o s = .happened none (some o) (s.setUnit u .awaiting) := by
  rw [unitTaken, hs, if_neg Bool.false_ne_true]

theorem unitTaken_of_stopping (hs : (s.unit u).stopping = true) (o : UnitOutcome) :
    unitTaken u o s = .happened (some .ok) (some o) (s.setUnit u .created) := by
  rw [unitTaken, hs, if_pos rfl]

end Operation

/-! ### What the computation of a unit keeps -/

/-- What a move of one unit keeps of everything that is not that unit. -/
structure UnitKeeps (s t : State) : Prop where
  config : t.config = s.config
  units : t.units = s.units
  code : s.started = true → t.code = s.code
  halted : t.halted = s.halted
  error : t.error = s.error
  advancePc : t.advancePc = s.advancePc
  storage : s.StorageInv → t.StorageInv

theorem UnitKeeps.refl (s : State) : UnitKeeps s s := ⟨rfl, rfl, fun _ => rfl, rfl, rfl, rfl, id⟩

theorem Reaches.unitKeeps {f : Footprint} {s t : State} (h : Reaches f s t) (hj : f.jumps = false)
    (hh : f.halts = false) : UnitKeeps s t := by
  obtain ⟨hconfig, hunits, -, herr, hcode⟩ := h.fixed
  exact ⟨hconfig, hunits, fun _ => hcode, h.halted_of_not_halts hh, herr, h.advancePc_of_not_jumps hj, h.storageInv⟩

/-- Where a unit may write: the register or the cell that its first operand names. -/
def unitFootprint (args : List (BitVec 32)) : Footprint :=
  { Footprint.empty with
    regs := [(operandAt args 0).setWidth 8]
    cells := [(.data, operandWord args 0), (.stack, operandWord args 0), (.call, operandWord args 0)]
    addresses := [operandWord args 0] }

section Compute

variable (code : BitVec 8) (args : List (BitVec 32)) (s : State)

theorem rfCompute_reaches : (rfCompute code args s).Ends (Reaches (unitFootprint args) s) := by
  unfold rfCompute
  split
  · exact Res.ends_andThen (writeReg_reaches .start (by simp [unitFootprint]) _) fun _ _ _ ht => ht
  · exact Reaches.start

theorem memDataCompute_reaches : (memDataCompute code args s).Ends (Reaches (unitFootprint args) s) := by
  unfold memDataCompute
  split
  · exact Res.ends_andThen (memWrite_reaches .start (by simp [unitFootprint]) (by simp [unitFootprint]) _) fun _ _ _ ht => ht
  · exact Res.ends_andThen (memRead_reaches .start (by simp [unitFootprint])) fun _ _ _ ht => ht

theorem memStackCompute_reaches (k : StackId) : (memStackCompute k code args s).Ends (Reaches (unitFootprint args) s) := by
  unfold memStackCompute
  split
  · exact Reaches.start
  · next hsize =>
    split
    · have hcell : (stackSegment k, operandWord args 0) ∈ (unitFootprint args).cells := by
        cases k <;> simp [unitFootprint, stackSegment]
      exact Reaches.start.store hcell (by cases k <;> decide) (Nat.lt_of_not_le hsize) _
    · exact Reaches.start

/-- A Load of MEM.code changes nothing. -/
theorem memCodeCompute_reaches (hload : codeBit code = false) :
    (memCodeCompute code args s).Ends (Reaches (unitFootprint args) s) := by
  unfold memCodeCompute
  rw [hload]
  split <;> exact Reaches.start

/-! DEC, ALU, CMP, BRU and SYS compute and change nothing. -/

theorem decCompute_reaches : (decCompute code args s).Ends (Reaches (unitFootprint args) s) := by
  unfold decCompute
  split <;> exact Reaches.start

theorem aluCompute_reaches : (aluCompute code args s).Ends (Reaches (unitFootprint args) s) := by
  unfold aluCompute
  split
  · exact Reaches.start
  · split <;> exact Reaches.start

theorem cmpCompute_reaches : (cmpCompute code args s).Ends (Reaches (unitFootprint args) s) := by
  unfold cmpCompute
  split <;> exact Reaches.start

theorem bruCompute_reaches : (bruCompute code args s).Ends (Reaches (unitFootprint args) s) := by
  unfold bruCompute
  split <;> exact Reaches.start

theorem sysCompute_reaches : (sysCompute code args s).Ends (Reaches (unitFootprint args) s) := by
  unfold sysCompute
  split
  case h_4 => split <;> exact Reaches.start
  all_goals exact Reaches.start

/-- Every operation but a Store of MEM.code makes an update that an instruction may make too. -/
theorem unitCompute_reaches {u : UnitId} (h : u = .memCode → codeBit code = false) :
    (unitCompute u code args s).Ends (Reaches (unitFootprint args) s) := by
  cases u with
  | rf => exact rfCompute_reaches code args s
  | dec => exact decCompute_reaches code args s
  | alu => exact aluCompute_reaches code args s
  | cmp => exact cmpCompute_reaches code args s
  | bru => exact bruCompute_reaches code args s
  | memCode => exact memCodeCompute_reaches code args s (h rfl)
  | memData => exact memDataCompute_reaches code args s
  | memStack => exact memStackCompute_reaches code args s .dataStack
  | memCall => exact memStackCompute_reaches code args s .callStack
  | sys => exact sysCompute_reaches code args s

end Compute

theorem State.StorageInv.storeCell {s : State} (h : s.StorageInv) {a : Nat} (ha : a < s.config.codeSize) (w : Cell32) :
    (s.setMem .code (s.code.writeCell a w)).StorageInv := by
  obtain ⟨⟨hcode, hcodeB⟩, hdata, hstack, hcall⟩ := h.memories
  exact ⟨h.config, h.slot0, h.slot1,
    ⟨⟨Memory.wf_writeCell hcode a w, Memory.below_writeCell hcodeB ha w⟩, hdata, hstack, hcall⟩, h.units⟩

/-- A Store of MEM.code before the first step (log 25). -/
theorem memCodeCompute_keeps {code : BitVec 8} {s : State} (hcode : codeBit code = true) (hs : s.started = false)
    (args : List (BitVec 32)) : (memCodeCompute code args s).Ends (UnitKeeps s) := by
  unfold memCodeCompute
  rw [hcode]
  split
  · exact .refl s
  · next hsize =>
    exact ⟨rfl, rfl, fun hstarted => absurd (hs.symm.trans hstarted) Bool.false_ne_true, rfl, rfl, rfl,
      fun h => h.storeCell (Nat.lt_of_not_le hsize) _⟩

theorem unitCompute_keeps {u : UnitId} {code : BitVec 8} {s : State} (hacc : unitAccepts u code s = true)
    (args : List (BitVec 32)) : (unitCompute u code args s).Ends (UnitKeeps s) := by
  by_cases h : u = .memCode ∧ codeBit code = true
  · obtain ⟨rfl, hcode⟩ := h
    exact memCodeCompute_keeps hcode (by simpa [unitAccepts, hcode] using hacc) args
  · have hload : u = .memCode → codeBit code = false := fun hu => Bool.eq_false_iff.mpr fun hcode => h ⟨hu, hcode⟩
    have hends := unitCompute_reaches code args s hload
    cases hc : unitCompute u code args s with
    | done r t => exact Reaches.unitKeeps (by simpa [hc] using hends) rfl rfl
    | raised e t => exact Reaches.unitKeeps (by simpa [hc] using hends) rfl rfl
    | hung why => trivial

/-! ### Coherence of the units -/

theorem unitsCoherent_iff (s : State) : s.unitsCoherent = true ↔ ∀ u, (s.unit u).coherent u = true := by
  rw [State.unitsCoherent, List.all_eq_true]
  exact ⟨fun h u => h u (by cases u <;> decide), fun h u _ => h u⟩

theorem running_eq_false_iff_of_coherent {u : UnitId} {x : UnitState} (h : x.coherent u = true) :
    x.running = false ↔ x.phase = .idle := by
  unfold UnitState.coherent at h
  cases hp : x.phase <;> simp_all

theorem coherent_awaiting (u : UnitId) : UnitState.awaiting.coherent u = true := rfl

theorem coherent_created (u : UnitId) : UnitState.created.coherent u = true := rfl

theorem State.StorageInv.setUnit {s : State} (h : s.StorageInv) {u : UnitId} {x : UnitState}
    (hx : x.coherent u = true) : (s.setUnit u x).StorageInv := by
  refine ⟨h.config, h.slot0, h.slot1, h.memories, (unitsCoherent_iff _).mpr fun v => ?_⟩
  by_cases hv : v = u
  · rw [hv, State.unit_setUnit_self, hx]
  · rw [State.unit_setUnit_of_ne s hv]
    exact (unitsCoherent_iff s).mp h.units v

/-! ### What an event keeps -/

/-- An event of unit `u` led to `t` and delivered `o`: only `u` moved, coherently, apart from a computation that keeps what
`UnitKeeps` says; and an outcome was delivered only where it was offered. -/
def EventKeeps (u : UnitId) (s t : State) (o : Option UnitOutcome) : Prop :=
  ∃ s' x, UnitKeeps s s' ∧ t = s'.setUnit u x ∧ x.coherent u = true ∧
    ∀ y, o = some y → (s.unit u).phase = .emit y ∧ (x = .awaiting ∨ x = .created)

section Events

variable {u : UnitId} {s t : State} {reply : Option ControlReply} {o : Option UnitOutcome}

theorem EventKeeps.move {x : UnitState} (hx : x.coherent u = true) : EventKeeps u s (s.setUnit u x) none :=
  ⟨s, x, .refl s, rfl, hx, nofun⟩

theorem EventKeeps.stay (hu : (s.unit u).coherent u = true) : EventKeeps u s s none :=
  ⟨s, s.unit u, .refl s, (s.setUnit_unit u).symm, hu, nofun⟩

theorem unitStart_keeps (hu : (s.unit u).coherent u = true) (h : unitStart u s = .happened reply o t) :
    EventKeeps u s t o := by
  unfold unitStart at h
  split at h
  · cases h
    exact .move (coherent_awaiting u)
  · split at h <;> cases h
    exact .stay hu

theorem unitStop_keeps (hu : (s.unit u).coherent u = true) (h : unitStop u s = .happened reply o t) :
    EventKeeps u s t o := by
  unfold unitStop at h
  split at h
  · cases h
    exact .stay hu
  · next hphase =>
    split at h <;> cases h
    exact .move (by simpa [UnitState.coherent, hphase] using hu)
  · cases h
    exact .move (coherent_created u)

theorem unitOperation_keeps {code : BitVec 8} (hu : (s.unit u).coherent u = true)
    (h : unitOperation u code s = .happened reply o t) : EventKeeps u s t o := by
  unfold unitOperation at h
  split at h
  · next hphase =>
    split at h <;> cases h
    have harity : 0 < unitArity u := by cases u <;> decide
    exact .move (by simpa [UnitState.coherent, hphase, harity] using hu)
  · cases h

theorem unitComplete_keeps {code : BitVec 8} {args : List (BitVec 32)} (hacc : unitAccepts u code s = true)
    (hrun : (s.unit u).running = true) (h : unitComplete u code args s = .happened reply o t) : EventKeeps u s t o := by
  have hkeeps := unitCompute_keeps hacc args
  have hoffer : ∀ {s' : State} (y : UnitOutcome), UnitKeeps s s' →
      EventKeeps u s (s'.setUnit u { s'.unit u with phase := .emit y }) none := fun {s'} y hs' => by
    have hunit : s'.unit u = s.unit u := congrArg (·.get u) hs'.units
    exact ⟨s', _, hs', rfl, by rw [hunit]; exact hrun, nofun⟩
  unfold unitComplete at h
  cases hc : unitCompute u code args s <;> rw [hc] at h hkeeps <;> cases h
  · exact hoffer _ hkeeps
  · exact hoffer _ hkeeps

theorem unitOperand_keeps {i : Nat} {v : BitVec 32} (hu : (s.unit u).coherent u = true)
    (h : unitOperand u i v s = .happened reply o t) : EventKeeps u s t o := by
  unfold unitOperand at h
  split at h
  case h_2 => cases h
  next code got hphase =>
  obtain ⟨⟨hrun, hstop⟩, hlen⟩ :
      ((s.unit u).running = true ∧ (s.unit u).stopping = false) ∧ got.length < unitArity u := by
    simpa [UnitState.coherent, hphase] using hu
  split at h
  case isFalse => cases h
  next hi =>
  obtain ⟨hi, hacc⟩ := hi
  split at h
  · exact unitComplete_keeps hacc hrun h
  · next hmore =>
    cases h
    have hlen' : got.length + 1 < unitArity u := by omega
    exact .move (by simp [UnitState.coherent, hrun, hstop, hlen'])

theorem unitTaken_keeps {y : UnitOutcome} (hphase : (s.unit u).phase = .emit y)
    (h : unitTaken u y s = .happened reply o t) : EventKeeps u s t o := by
  unfold unitTaken at h
  split at h <;> cases h
  · exact ⟨s, .created, .refl s, rfl, coherent_created u, by rintro _ ⟨⟩; exact ⟨hphase, .inr rfl⟩⟩
  · exact ⟨s, .awaiting, .refl s, rfl, coherent_awaiting u, by rintro _ ⟨⟩; exact ⟨hphase, .inl rfl⟩⟩

theorem unitEvent_keeps {ev : UnitEvent} (hu : (s.unit u).coherent u = true)
    (h : unitEvent u ev s = .happened reply o t) : EventKeeps u s t o := by
  cases ev with
  | start => exact unitStart_keeps hu h
  | stop => exact unitStop_keeps hu h
  | operation code => exact unitOperation_keeps hu h
  | operand i v => exact unitOperand_keeps hu h
  | takeResult =>
    change unitTakeResult u s = _ at h
    unfold unitTakeResult at h
    split at h
    · next hphase => exact unitTaken_keeps hphase h
    · cases h
  | takeError =>
    change unitTakeError u s = _ at h
    unfold unitTakeError at h
    split at h
    · next hphase => exact unitTaken_keeps hphase h
    · cases h

end Events

end Sys2Proof.Machine
end

section
open Sys2Proof Sys2Proof.Machine Sys2Proof.Statements

/-- Settles O56: one equation for each event in each phase. -/
theorem unitTransitions : Obligations.UnitTransitions := by
  intro u s
  refine ⟨fun h => ?_, fun h => ?_, fun code got h => ?_, fun o h => ?_, fun o h => ?_⟩
  · have hphase : ∀ p, p ≠ .idle → (s.unit u).phase ≠ p := fun p hp heq => hp (heq.symm.trans h)
    exact ⟨unitEvent_start_of_idle h, unitEvent_stop_of_idle h, unitEvent_operation_waits (hphase _ nofun),
      unitEvent_operand_waits fun _ _ => hphase _ nofun, unitEvent_takeResult_waits fun _ => hphase _ nofun,
      unitEvent_takeError_waits fun _ => hphase _ nofun⟩
  · have hphase : ∀ p, p ≠ .awaitOp → (s.unit u).phase ≠ p := by rw [h]; exact fun p hp heq => hp heq.symm
    exact ⟨unitEvent_start_of_running (hphase _ nofun) (by rw [h]; rfl),
      unitEvent_stop_of_incomplete (hphase _ nofun) fun _ => hphase _ nofun,
      fun _ hacc => unitEvent_operation_of_awaiting h hacc, unitEvent_operand_waits fun _ _ => hphase _ nofun⟩
  · have hphase : ∀ p, p ≠ .awaitOperand code got → (s.unit u).phase ≠ p := by rw [h]; exact fun p hp heq => hp heq.symm
    refine ⟨unitEvent_start_of_running (hphase _ nofun) (by rw [h]),
      unitEvent_stop_of_incomplete (hphase _ nofun) fun _ => hphase _ nofun, unitEvent_operation_waits (hphase _ nofun),
      fun _ v hi => unitEvent_operand_out_of_order h hi v, fun v hacc hmore => unitEvent_operand_of_more h hacc hmore v,
      fun v r t hacc hlast hc => ?_, fun v e t hacc hlast hc => ?_⟩
    · rw [unitEvent_last_operand h hacc hlast, unitComplete_of_done h hc]
      rfl
    · rw [unitEvent_last_operand h hacc hlast, unitComplete_of_raised h hc]
      rfl
  · have hoffered : (s.unit u).phase = .emit o := by rw [h]
    have hgoes : (s.unit u).stopping = false := by rw [h]
    have hphase : ∀ p, p ≠ .emit o → (s.unit u).phase ≠ p := fun p hp heq => hp (heq.symm.trans hoffered)
    refine ⟨unitEvent_start_of_running (hphase _ nofun) hgoes, ?_, unitEvent_operation_waits (hphase _ nofun), ?_, ?_⟩
    · rw [unitEvent_stop_of_emit hoffered, hgoes, if_neg Bool.false_ne_true, h]
    · rintro r rfl
      refine ⟨?_, unitEvent_takeError_waits fun _ => hphase _ nofun⟩
      rw [unitEvent_takeResult_of_emit hoffered, unitTaken_of_not_stopping hgoes]
    · rintro e rfl
      refine ⟨?_, unitEvent_takeResult_waits fun _ => hphase _ nofun⟩
      rw [unitEvent_takeError_of_emit hoffered, unitTaken_of_not_stopping hgoes]
  · have hoffered : (s.unit u).phase = .emit o := by rw [h]
    have hstops : (s.unit u).stopping = true := by rw [h]
    refine ⟨unitEvent_operation_waits (by rw [hoffered]; nofun), ?_, ?_⟩
    · rintro r rfl
      rw [unitEvent_takeResult_of_emit hoffered, unitTaken_of_stopping hstops]
    · rintro e rfl
      rw [unitEvent_takeError_of_emit hoffered, unitTaken_of_stopping hstops]

/-- Settles O57: an event moves its own unit coherently, after a computation that keeps the storage part of the invariant and
touches no flag; MEM.code, the one unit that writes the code, does so before the first step only. -/
theorem unitEventsKeepInvariant : Obligations.UnitEventsKeepInvariant := by
  refine ⟨fun u ev s t reply o hinv h => ?_, fun u s o h => ?_⟩
  · have hstorage := hinv.storage
    obtain ⟨_, _, _, _, herr, hadv, _⟩ := hinv
    obtain ⟨s', x, hkeeps, rfl, hx, ho⟩ := unitEvent_keeps ((unitsCoherent_iff s).mp hstorage.units u) h
    refine ⟨((hkeeps.storage hstorage).setUnit hx).inv (fun hhalt => ?_) (hkeeps.advancePc.trans hadv), hkeeps.config,
      fun v hv => ?_, hkeeps.code, fun y hy => ?_, ?_⟩
    · exact hkeeps.error.trans (herr (hkeeps.halted.symm.trans hhalt))
    · rw [State.unit_setUnit_of_ne s' hv]
      exact congrArg (·.get v) hkeeps.units
    · rw [State.unit_setUnit_self]
      exact ho y hy
    · rw [State.unit_setUnit_self]
      exact running_eq_false_iff_of_coherent hx
  · have hoffered : (s.unit u).phase = .emit o := by rw [h]
    have hstops : (s.unit u).stopping = true := by rw [h]
    refine ⟨unitEvent_start_of_stopping (by rw [hoffered]; nofun) hstops, ?_⟩
    rw [unitEvent_stop_of_emit hoffered, hstops, if_pos rfl]

end

section
/-! PROOFS. The catalogue of the units in the rules' own terms (47_functional_units.md R333 to R339): the ALU, CMP and BRU tables
as formulas, and the complete operations of the units that hold storage. -/

namespace Sys2Proof.Machine

open Sys2Proof.Statements

/-! ### ALU (R335) -/

theorem ArithFn.Computes.map_some {f : ArithFn} {g : Nat → Nat → Nat} (h : f.Computes g) (a b : Word) :
    some (f a b) = (some (some (g a.toNat b.toNat))).map (Option.map (BitVec.ofNat 16)) :=
  congrArg some (h a b)

theorem ArithFn.Divides.map_some {f : ArithFn} {g : Nat → Nat → Nat} (h : f.Divides g) (a b : Word) :
    some (f a b) = (some (if b.toNat = 0 then none else some (g a.toNat b.toNat))).map (Option.map (BitVec.ofNat 16)) := by
  obtain ⟨hzero, hresult⟩ := h
  by_cases hb : b = 0#16
  · rw [hb, hzero]
    rfl
  · have hb' : b.toNat ≠ 0 := fun h0 => hb (BitVec.eq_of_toNat_eq h0)
    rw [hresult a b hb, if_neg hb']
    rfl

/-- The table of the ALU is the formula of each op code, modulo 2^16. -/
theorem aluFn_eq_aluFormula (op : BitVec 5) (a b : Word) :
    (aluFn op).map (fun f => f a b) = (aluFormula op.toNat a.toNat b.toNat).map (Option.map (BitVec.ofNat 16)) := by
  unfold aluFn
  split
  case h_23 => simp [aluFormula, *]
  all_goals
    rename_i hop
    rw [hop]
  case h_1 | h_16 => exact addFn_computes.map_some a b
  case h_2 | h_17 => exact subFn_computes.map_some a b
  case h_3 | h_18 => exact mulFn_computes.map_some a b
  case h_4 | h_19 => exact divFn_divides.map_some a b
  case h_5 | h_20 => exact remFn_divides.map_some a b
  case h_6 | h_21 => exact shlFn_computes.map_some a b
  case h_7 | h_22 => exact shrFn_computes.map_some a b
  case h_8 => exact andFn_computes.map_some a b
  case h_9 => exact orFn_computes.map_some a b
  case h_10 => exact notFn_computes.map_some a b
  case h_11 => exact xorFn_computes.map_some a b
  case h_12 => exact incFn_computes.map_some a b
  case h_13 => exact decFn_computes.map_some a b
  case h_14 => exact doubleFn_computes.map_some a b
  case h_15 => exact halveFn_computes.map_some a b

section Alu

variable {s : State} (h : s.unit .alu = .awaiting) (op : BitVec 5) (a b : Word)
include h

theorem operate_alu_of_formula {r : Nat} (hr : aluFormula op.toNat a.toNat b.toNat = some (some r)) :
    operate .alu (op.setWidth 8) [a.setWidth 32, b.setWidth 32] s = .done (.word (BitVec.ofNat 16 r)) s := by
  have htable := aluFn_eq_aluFormula op a b
  rw [hr] at htable
  obtain ⟨f, hf, hfr⟩ := Option.map_eq_some_iff.mp htable
  exact operate_alu_of_some h hf hfr

theorem operate_alu_of_division_by_zero (hr : aluFormula op.toNat a.toNat b.toNat = some none) :
    operate .alu (op.setWidth 8) [a.setWidth 32, b.setWidth 32] s = .raised .divideByZero s := by
  have htable := aluFn_eq_aluFormula op a b
  rw [hr] at htable
  obtain ⟨f, hf, hfr⟩ := Option.map_eq_some_iff.mp htable
  exact operate_alu_of_none h hf hfr

theorem operate_alu_of_no_formula (hr : aluFormula op.toNat a.toNat b.toNat = none) :
    operate .alu (op.setWidth 8) [a.setWidth 32, b.setWidth 32] s = .raised (.notImplemented op) s := by
  have htable := aluFn_eq_aluFormula op a b
  rw [hr] at htable
  exact operate_alu_of_no_function h (Option.map_eq_none_iff.mp htable) a b

end Alu

/-! ### CMP (R336) -/

theorem cmpCombinator_eq_combined (op : BitVec 5) : cmpCombinator op = combined op.toNat := by
  have hcases : op.toNat % 4 = 0 ∨ op.toNat % 4 = 1 ∨ op.toNat % 4 = 2 ∨ op.toNat % 4 = 3 := by omega
  funext old new
  rcases hcases with h | h | h | h <;> simp only [cmpCombinator, combined, h]
  · rfl
  · rfl
  · rfl
  · exact congrFun (congrFun combineXor_eq_xorRule old) new

theorem cmpPredicate_eq_relation {op : BitVec 5} (h : op.toNat < 24) :
    ∃ p, cmpPredicate op = some p ∧ Compares p (relationHolds op.toNat) := by
  unfold cmpPredicate
  split
  case h_7 =>
    simp only [imp_false] at *
    omega
  all_goals
    rename_i hop
    refine ⟨_, rfl, fun a b => ?_⟩
    simp only [relationHolds, hop]
  · exact predEq_compares a b
  · exact predNeq_compares a b
  · exact predLt_compares a b
  · exact predGt_compares a b
  · exact predLe_compares a b
  · exact predGe_compares a b

theorem operate_cmp_of_lt {s : State} (h : s.unit .cmp = .awaiting) {op : BitVec 5} (hop : op.toNat < 24)
    (pred a b : Word) :
    operate .cmp (op.setWidth 8) [pred.setWidth 32, a.setWidth 32, b.setWidth 32] s =
      .done (.word (if combined op.toNat (decide (pred ≠ 0#16)) (relationHolds op.toNat a.toNat b.toNat) then 1#16
        else 0#16)) s := by
  obtain ⟨p, hp, hrelation⟩ := cmpPredicate_eq_relation hop
  rw [operate_cmp_of_some h hp, comparePred, boolOf_eq_decide, cmpCombinator_eq_combined, hrelation, wordOf]

/-! ### BRU (R337) -/

section Bru

variable {op : BitVec 5} {pushes : Bool} {ip pred t f : Word}

theorem bruResult_jump (h : op.toNat = 0 ∨ op.toNat = 2) :
    bruResult op pushes ip pred t f = some (.branch false false t) := by
  rcases h with h | h <;> simp only [bruResult, h]

theorem bruResult_call (h : op.toNat = 1 ∨ op.toNat = 3) :
    bruResult op pushes ip pred t f = some (.branch false true t) := by
  rcases h with h | h <;> simp only [bruResult, h]

theorem bruResult_jumpIf (h : op.toNat = 4 ∨ op.toNat = 6) :
    bruResult op pushes ip pred t f = some (.branch false false (if pred ≠ 0#16 then t else ip + 1#16)) := by
  rcases h with h | h <;> simp [bruResult, h, boolOf_eq_decide]

theorem bruResult_jumpUnless (h : op.toNat = 8 ∨ op.toNat = 10) :
    bruResult op pushes ip pred t f = some (.branch false false (if pred = 0#16 then t else ip + 1#16)) := by
  rcases h with h | h <;> simp [bruResult, h, boolOf_eq_decide]

/-- A conditional call links where it is taken, and untaken where the parameter says so (43_jump.md R241). -/
theorem bruResult_callIf (h : op.toNat = 5 ∨ op.toNat = 7) :
    (pred ≠ 0#16 → bruResult op pushes ip pred t f = some (.branch false true t)) ∧
    (pred = 0#16 → bruResult op pushes ip pred t f = some (.branch false pushes (ip + 1#16))) := by
  constructor <;> intro hpred <;> rcases h with h | h <;> simp [bruResult, h, boolOf_eq_decide, hpred]

theorem bruResult_callUnless (h : op.toNat = 9 ∨ op.toNat = 11) :
    (pred = 0#16 → bruResult op pushes ip pred t f = some (.branch false true t)) ∧
    (pred ≠ 0#16 → bruResult op pushes ip pred t f = some (.branch false pushes (ip + 1#16))) := by
  constructor <;> intro hpred <;> rcases h with h | h <;> simp [bruResult, h, boolOf_eq_decide, hpred]

/-- A choice between two registers is op 12 or 13, and a call from op 14 on (43_jump.md R242). -/
theorem bruResult_select {isCall : Bool} (h : op.toNat = if isCall then 14 else 12) :
    bruResult op pushes ip pred t f = some (.branch false isCall (if pred ≠ 0#16 then t else f)) := by
  cases isCall <;> simp [bruResult, h, boolOf_eq_decide]

theorem bruResult_selectNot {isCall : Bool} (h : op.toNat = if isCall then 15 else 13) :
    bruResult op pushes ip pred t f = some (.branch false isCall (if pred = 0#16 then t else f)) := by
  cases isCall <;> simp [bruResult, h, boolOf_eq_decide]

theorem bruResult_ret (h : op.toNat = 16) : bruResult op pushes ip pred t f = some (.branch true false 0#16) := by
  simp only [bruResult, h]

end Bru

/-! ### RF (R333) and the memory controllers (R338) -/

section Storage

variable {s : State}

theorem operate_rf_read (h : s.unit .rf = .awaiting) (i : RegIdx) (x : BitVec 32) :
    operate .rf 0#8 [i.setWidth 32, x] s = .done (.word (s.reg i)) s := by
  rw [operate_eq h rfl rfl]
  simp [unitCompute, rfCompute, codeBit, operandAt]

theorem operate_rf_write (h : s.unit .rf = .awaiting) (i : RegIdx) (v : Word) :
    operate .rf 1#8 [i.setWidth 32, v.setWidth 32] s = (writeReg i v s).andThen fun _ t => .done (.word v) t := by
  rw [operate_eq h rfl rfl]
  simp [unitCompute, rfCompute, codeBit, operandAt, operandWord]

theorem operate_dec_decode (h : s.unit .dec = .awaiting) (w : Cell32) :
    operate .dec 0#8 [w] s = .done (.record (decodeFields w)) s := by
  rw [operate_eq h rfl rfl]
  rfl

theorem operate_memCode_load (h : s.unit .memCode = .awaiting) (a : Word) (x : BitVec 32) :
    operate .memCode 0#8 [a.setWidth 32, x] s = (codeRead a s).andThen fun w t => .done (.cell w) t := by
  rw [operate_eq h rfl rfl]
  simp only [unitCompute, memCodeCompute, operandWord_setWidth, codeRead]
  split <;> rfl

/-- Until the first step MEM.code takes a Store (log 25). -/
theorem operate_memCode_store (h : s.unit .memCode = .awaiting) (hs : s.started = false) (a : Word) (x : BitVec 32) :
    operate .memCode 1#8 [a.setWidth 32, x] s =
      if s.config.codeSize ≤ a.toNat then .raised (.addressOutOfRange .code a) s
      else .done (.cell x) (s.setMem .code (s.code.writeCell a.toNat x)) := by
  rw [operate_eq h (unitAccepts_of_not_started hs _ _) rfl]
  simp only [unitCompute, memCodeCompute, operandWord_setWidth]
  rfl

/-- From the first step on a Store offered to MEM.code waits (log 25). -/
theorem unitEvent_memCode_store_waits (h : s.unit .memCode = .awaiting) (hs : s.started = true) :
    unitEvent .memCode (.operation 1#8) s = .waits := by
  have hacc : unitAccepts .memCode 1#8 s = false := by simp [unitAccepts, codeBit, hs]
  simp only [unitEvent, unitOperation, h, UnitState.awaiting, hacc, Bool.false_eq_true, if_false]

theorem operate_memData_load (h : s.unit .memData = .awaiting) (a : Word) (x : BitVec 32) :
    operate .memData 0#8 [a.setWidth 32, x] s = (memRead a s).andThen fun v t => .done (.word v) t := by
  rw [operate_eq h rfl rfl]
  simp only [unitCompute, memDataCompute, operandWord_setWidth]
  rfl

theorem operate_memData_store (h : s.unit .memData = .awaiting) (a v : Word) :
    operate .memData 1#8 [a.setWidth 32, v.setWidth 32] s = (memWrite a v s).andThen fun _ t => .done (.word v) t := by
  rw [operate_eq h rfl rfl]
  simp only [unitCompute, memDataCompute, operandWord_setWidth, operandWord_setWidth_one]
  rfl

theorem operate_stack_load {k : StackId} (h : s.unit (stackUnit k) = .awaiting) (a : Word) (x : BitVec 32) :
    operate (stackUnit k) 0#8 [a.setWidth 32, x] s =
      if s.size (stackSegment k) ≤ a.toNat then .raised (.addressOutOfRange (stackSegment k) a) s
      else .done (.word ((s.mem (stackSegment k)).readWord a.toNat)) s := by
  rw [operate_eq h (by cases k <;> rfl) (by cases k <;> rfl)]
  cases k <;> simp only [stackUnit, unitCompute, memStackCompute, operandWord_setWidth] <;> rfl

theorem operate_stack_store {k : StackId} (h : s.unit (stackUnit k) = .awaiting) (a : Word) (x : BitVec 32) :
    operate (stackUnit k) 1#8 [a.setWidth 32, x] s =
      if s.size (stackSegment k) ≤ a.toNat then .raised (.addressOutOfRange (stackSegment k) a) s
      else .done (.word (x.setWidth 16))
        (s.setMem (stackSegment k) ((s.mem (stackSegment k)).writeWord a.toNat (x.setWidth 16))) := by
  rw [operate_eq h (by cases k <;> rfl) (by cases k <;> rfl)]
  cases k <;> simp only [stackUnit, unitCompute, memStackCompute, operandWord_setWidth] <;> rfl

/-- What a stack's unit does with an address, in range and out of range. -/
theorem stack_operations {k : StackId} (h : s.unit (stackUnit k) = .awaiting) (a v : Word) (x : BitVec 32) :
    (s.size (stackSegment k) ≤ a.toNat →
      operate (stackUnit k) 0#8 [a.setWidth 32, x] s = .raised (.addressOutOfRange (stackSegment k) a) s ∧
      operate (stackUnit k) 1#8 [a.setWidth 32, x] s = .raised (.addressOutOfRange (stackSegment k) a) s) ∧
    (a.toNat < s.size (stackSegment k) →
      operate (stackUnit k) 0#8 [a.setWidth 32, x] s = .done (.word ((s.mem (stackSegment k)).readWord a.toNat)) s ∧
      operate (stackUnit k) 1#8 [a.setWidth 32, v.setWidth 32] s =
        .done (.word v) (s.setMem (stackSegment k) ((s.mem (stackSegment k)).writeWord a.toNat v))) := by
  refine ⟨fun hsize => ⟨?_, ?_⟩, fun hsize => ⟨?_, ?_⟩⟩
  · rw [operate_stack_load h, if_pos hsize]
  · rw [operate_stack_store h, if_pos hsize]
  · rw [operate_stack_load h, if_neg (Nat.not_le.mpr hsize)]
  · have hv : (v.setWidth 32).setWidth 16 = v := BitVec.setWidth_setWidth_of_le v (by decide)
    rw [operate_stack_store h, if_neg (Nat.not_le.mpr hsize), hv]

end Storage

/-! ### SYS (R339) -/

theorem putcCode_same (a b : Word) : putcCode true a b = BitVec.ofNat 32 (a.toNat % 256) := by
  refine BitVec.eq_of_toNat_eq ?_
  have hlow : (a.extractLsb' 0 8).toNat = a.toNat % 256 := BitVec.extractLsb'_toNat 0 8 a
  rw [putcCode, if_pos rfl, BitVec.toNat_setWidth, hlow, BitVec.toNat_ofNat]

theorem putcCode_different (a b : Word) : putcCode false a b = BitVec.ofNat 32 (65536 * b.toNat + a.toNat) := by
  refine BitVec.eq_of_toNat_eq ?_
  have ha : a.toNat < 65536 := a.isLt
  have hb : b.toNat < 65536 := b.isLt
  rw [putcCode, if_neg Bool.false_ne_true, toNat_append_eq_add, BitVec.toNat_ofNat]
  omega

section Sys

variable {s : State} (h : s.unit .sys = .awaiting)
include h

theorem operate_sys_terminate (x y : BitVec 32) : operate .sys 0#8 [x, x, x, y] s = .done (.sys true false 0#32) s := by
  rw [operate_eq h rfl rfl]
  rfl

theorem operate_sys_panic (imm : Word) (x y : BitVec 32) :
    operate .sys 1#8 [imm.setWidth 32, x, x, y] s = .raised (.panic imm) s := by
  rw [operate_eq h rfl rfl]
  exact congrArg (Res.raised · s) (congrArg Error.panic (operandWord_setWidth imm _))

theorem operate_sys_putc {y : BitVec 32} {same : Bool} (hy : y.getLsbD 0 = same) (x : BitVec 32) (a b : Word) :
    operate .sys 2#8 [x, a.setWidth 32, b.setWidth 32, y] s = .done (.sys false true (putcCode same a b)) s := by
  have htable : systemCallTable s.config 2#8 = .putc := rfl
  rw [operate_eq h rfl rfl]
  simp only [unitCompute, sysCompute, htable, operandWord_setWidth_one, operandWord_setWidth_two, ← hy]
  rfl

theorem operate_sys_invalid {sel : BitVec 8} (hsel : systemCallTable s.config sel = .invalid) (x y : BitVec 32) :
    operate .sys sel [x, x, x, y] s = .raised (.invalidSystemCommand sel) s := by
  rw [operate_eq h rfl rfl]
  simp only [unitCompute, sysCompute, hsel]

end Sys

/-- The one operation a unit may not accept is a Store of MEM.code after the first step (log 25). -/
theorem unitAccepts_iff (u : UnitId) (code : BitVec 8) (s : State) :
    unitAccepts u code s = true ↔ (u = .memCode → code.getLsbD 0 = true → s.started = false) := by
  cases u with
  | memCode =>
    rw [unitAccepts, codeBit]
    cases code.getLsbD 0 <;> cases s.started <;> simp
  | _ => exact iff_of_true rfl nofun

end Sys2Proof.Machine
end

section
open Sys2Proof Sys2Proof.Machine Sys2Proof.Statements

/-- Settles O58: the table of each unit is the formula of its op codes. -/
theorem unitOperations : Obligations.UnitOperations := by
  intro s
  refine ⟨fun h i v x => ⟨operate_rf_read h i x, fun hi => ?_, fun hi => ?_⟩, fun h w => operate_dec_decode h w,
    fun h op a b => ⟨fun _ => operate_alu_of_formula h op a b, operate_alu_of_division_by_zero h op a b,
      operate_alu_of_no_formula h op a b⟩,
    fun h op pred a b => ⟨fun hop => operate_cmp_of_lt h hop pred a b,
      fun hop => operate_cmp_of_none h ((cmpPredicate_eq_none_iff op).mpr hop) pred a b⟩, fun h op ip pred t f => ?_⟩
  · rw [operate_rf_write h, writeReg_of_lt hi, Res.andThen_raised]
  · rw [operate_rf_write h, writeReg_of_le hi, Res.andThen_done]
  · have hrow : ∀ {res}, bruResult op s.config.untakenCallPushes ip pred t f = some res →
        operate .bru (op.setWidth 8) [ip.setWidth 32, pred.setWidth 32, t.setWidth 32, f.setWidth 32] s = .done res s :=
      operate_bru_of_some h
    exact ⟨fun hop => hrow (bruResult_jump hop), fun hop => hrow (bruResult_call hop),
      fun hop => hrow (bruResult_jumpIf hop), fun hop => hrow (bruResult_jumpUnless hop),
      fun hop => ⟨fun hp => hrow ((bruResult_callIf hop).1 hp), fun hp => hrow ((bruResult_callIf hop).2 hp)⟩,
      fun hop => ⟨fun hp => hrow ((bruResult_callUnless hop).1 hp), fun hp => hrow ((bruResult_callUnless hop).2 hp)⟩,
      fun hop => hrow (bruResult_select (isCall := false) hop), fun hop => hrow (bruResult_selectNot (isCall := false) hop),
      fun hop => hrow (bruResult_select (isCall := true) hop), fun hop => hrow (bruResult_selectNot (isCall := true) hop),
      fun hop => hrow (bruResult_ret hop), fun hop => operate_bru_of_none h ((bruResult_eq_none_iff ..).mpr hop)⟩

/-- Settles O59: each complete operation is the computation of its unit, which is the rule of its segment, of the router or of
the system-call table. -/
theorem storageUnitOperations : Obligations.StorageUnitOperations := by
  refine ⟨unitAccepts_iff, fun s a v x => ⟨fun h => ⟨fun hsize => ⟨?_, fun hs => ?_⟩, fun hsize => ⟨?_, fun hs => ?_⟩,
    unitEvent_memCode_store_waits h⟩, fun h => ?_, ?_, fun h imm b c y => ?_, ?_, fun c => ?_⟩⟩
  · rw [operate_memCode_load h, codeRead, if_pos hsize, Res.andThen_raised]
  · rw [operate_memCode_store h hs, if_pos hsize]
  · rw [operate_memCode_load h, codeRead, if_neg (Nat.not_le.mpr hsize), Res.andThen_done]
  · rw [operate_memCode_store h hs, if_neg (Nat.not_le.mpr hsize)]
  · rw [operate_memData_load h, operate_memData_store h]
    refine ⟨fun w t hr => ?_, fun e t hr => ?_, fun why hr => ?_, fun t hw => ?_, fun e t hw => ?_, fun why hw => ?_⟩
    · rw [hr, Res.andThen_done]
    · rw [hr, Res.andThen_raised]
    · rw [hr, Res.andThen_hung]
    · rw [hw, Res.andThen_done]
    · rw [hw, Res.andThen_raised]
    · rw [hw, Res.andThen_hung]
  · rintro u seg (⟨rfl, rfl⟩ | ⟨rfl, rfl⟩) h
    · exact stack_operations (k := .dataStack) h a v x
    · exact stack_operations (k := .callStack) h a v x
  · refine ⟨operate_sys_terminate h x y, operate_sys_panic h imm x y, ?_, ?_,
      fun _ hsel => operate_sys_invalid h hsel x y⟩
    · rw [operate_sys_putc h (same := true) (by decide), putcCode_same]
    · rw [operate_sys_putc h (same := false) (by decide), putcCode_different]
  · rw [composeSystem, State.applyResult_halt]
  · rw [composeSystem, State.applyResult_emit, State.emit]

end

section
/-! PROOFS. The image (70_reset_and_hazards.md R415, R416): a loaded part reads as its bytes, the parts stand one after the
other, and the dump puts them together again. -/

namespace Sys2Proof.Machine

/-! ### A part of the image as a memory -/

theorem Memory.readByte_of_not_listed {a : Nat} : ∀ {m : Memory}, (∀ c ∈ m, c.1 ≠ a) → m.readByte a = Memory.unlisted
  | [], _ => rfl
  | c :: m, h => by
    have hc : c.1 ≠ a := h c List.mem_cons_self
    rw [Memory.readByte, if_neg hc]
    exact Memory.readByte_of_not_listed fun c' hc' => h c' (List.mem_cons_of_mem _ hc')

/-- Byte `n` of a part loaded from offset `start` on; past its end every byte is unlisted. -/
theorem Memory.readByte_ofBytes :
    ∀ (bytes : List Byte) (start n : Nat), (Memory.ofBytes start bytes).readByte (start + n) = bytes.getD n 0
  | [], _, _ => rfl
  | b :: rest, start, 0 => by
    rw [Memory.ofBytes, List.getD_cons_zero, Nat.add_zero]
    split
    · next hb =>
      rw [hb]
      exact Memory.readByte_of_not_listed fun c hc => (Nat.lt_of_succ_le (Memory.le_of_mem_ofBytes hc)).ne'
    · exact if_pos rfl
  | b :: rest, start, n + 1 => by
    have ih := Memory.readByte_ofBytes rest (start + 1) n
    rw [Memory.ofBytes, List.getD_cons_succ, ← ih, show start + 1 + n = start + (n + 1) by omega]
    split
    · rfl
    · exact if_neg (by omega)

theorem Memory.readByte_ofBytes_zero (bytes : List Byte) (n : Nat) : (Memory.ofBytes 0 bytes).readByte n = bytes.getD n 0 := by
  rw [← Memory.readByte_ofBytes bytes 0 n, Nat.zero_add]

@[simp] theorem Memory.length_toBytes (m : Memory) (n : Nat) : (m.toBytes n).length = n := by
  rw [Memory.toBytes, List.length_map, List.length_range]

theorem Memory.getD_toBytes (m : Memory) {n k : Nat} (h : k < n) : (m.toBytes n).getD k 0 = m.readByte k := by
  rw [List.getD_eq_getElem _ _ (by simpa using h)]
  simp [Memory.toBytes]

/-! ### The parts of the image -/

/-- The offset of a segment's part in the image: code, data, stack, call-stack. -/
def State.partStart (s : State) : Segment → Nat
  | .code => 0
  | .data => s.partLength .code
  | .stack => s.partLength .code + s.partLength .data
  | .call => s.partLength .code + s.partLength .data + s.partLength .stack

theorem State.imageLength_eq (s : State) :
    s.imageLength = 4 * s.config.codeSize + 2 * s.config.dataSize + 2 * s.config.stackSize + 2 * s.config.callSize := rfl

theorem State.mem_withImage (bytes : List Byte) (s : State) (seg : Segment) :
    (s.withImage bytes).mem seg = Memory.ofBytes 0 ((bytes.drop (s.partStart seg)).take (s.partLength seg)) := by
  cases seg with
  | code | data => rfl
  | stack | call => simp [State.withImage, State.mem, State.partStart, List.drop_drop]

/-- Byte `n` of a segment after a load is byte `n` of its part of the image. -/
theorem State.byteAt_withImage (bytes : List Byte) (s : State) (seg : Segment) {n : Nat} (h : n < s.partLength seg) :
    (s.withImage bytes).byteAt seg n = bytes.getD (s.partStart seg + n) 0 := by
  rw [State.byteAt, State.mem_withImage, Memory.readByte_ofBytes_zero, List.getD_eq_getElem?_getD, List.getElem?_take_of_lt h,
    List.getElem?_drop, ← List.getD_eq_getElem?_getD]

/-- Cell `k` of a segment of Words after a load, low byte first. -/
theorem State.readWord_withImage (bytes : List Byte) (s : State) {seg : Segment} (hseg : seg ≠ .code) {k : Nat}
    (h : k < s.size seg) :
    ((s.withImage bytes).mem seg).readWord k =
      bytes.getD (s.partStart seg + 2 * k + 1) 0 ++ bytes.getD (s.partStart seg + 2 * k) 0 := by
  have hpart : s.partLength seg = 2 * s.size seg := by
    cases seg with
    | code => exact absurd rfl hseg
    | _ => rfl
  have hbyte := fun n (hn : n < s.partLength seg) => s.byteAt_withImage bytes seg hn
  simp only [State.byteAt] at hbyte
  rw [Memory.readWord, hbyte _ (by omega), hbyte _ (by omega), Nat.add_assoc]

theorem State.readCell_withImage (bytes : List Byte) (s : State) {k : Nat} (h : k < s.config.codeSize) :
    (s.withImage bytes).code.readCell k = cellOfBytes (bytes.getD (4 * k) 0) (bytes.getD (4 * k + 1) 0)
      (bytes.getD (4 * k + 2) 0) (bytes.getD (4 * k + 3) 0) := by
  have hpart : s.partLength .code = 4 * s.config.codeSize := rfl
  have hbyte := fun n (hn : n < s.partLength .code) => s.byteAt_withImage bytes .code hn
  simp only [State.byteAt, State.mem_code, State.partStart, Nat.zero_add] at hbyte
  rw [Memory.readCell, hbyte _ (by omega), hbyte _ (by omega), hbyte _ (by omega), hbyte _ (by omega), cellOfBytes]

/-! ### Load and dump -/

theorem State.loadImage_of_started {s : State} (h : s.started = true) (bytes : List Byte) :
    s.loadImage bytes = .refused .coreStarted :=
  if_pos h

theorem State.loadImage_of_not_started {s : State} (h : s.started = false) (bytes : List Byte) :
    s.loadImage bytes = if bytes.length = s.imageLength then .ok (s.withImage bytes) else .refused .wrongLength := by
  rw [State.loadImage, h, if_neg Bool.false_ne_true]

/-- A load that is accepted had an image of the right length. -/
theorem State.loadImage_ok {s t : State} {bytes : List Byte} (h : s.loadImage bytes = .ok t) :
    bytes.length = s.imageLength ∧ t = s.withImage bytes := by
  cases hs : s.started with
  | true => cases (State.loadImage_of_started hs bytes).symm.trans h
  | false =>
    rw [State.loadImage_of_not_started hs] at h
    split at h
    · next hlen => cases h; exact ⟨hlen, rfl⟩
    · cases h

theorem State.length_dump (s : State) : s.dump.length = s.imageLength := by
  simp [State.dump, State.imageLength, Nat.add_assoc]

theorem getD_append_add {l : List Byte} {k : Nat} (h : l.length = k) (l' : List Byte) (n : Nat) :
    (l ++ l').getD (k + n) 0 = l'.getD n 0 := by
  subst h
  rw [List.getD_append_right _ _ _ _ (Nat.le_add_right _ _), Nat.add_sub_cancel_left]

/-- The dump has each segment's bytes at its part of the image. -/
theorem State.getD_dump (s : State) (seg : Segment) {n : Nat} (h : n < s.partLength seg) :
    s.dump.getD (s.partStart seg + n) 0 = s.byteAt seg n := by
  have hlen : ∀ seg, ((s.mem seg).toBytes (s.partLength seg)).length = s.partLength seg := fun _ => Memory.length_toBytes _ _
  have hskip : ∀ seg rest n, ((s.mem seg).toBytes (s.partLength seg) ++ rest).getD (s.partLength seg + n) 0 =
      rest.getD n 0 := fun seg => getD_append_add (hlen seg)
  have hhere : ∀ rest, ((s.mem seg).toBytes (s.partLength seg) ++ rest).getD n 0 = s.byteAt seg n := fun rest =>
    (List.getD_append _ rest _ _ (by rwa [hlen])).trans (Memory.getD_toBytes _ h)
  have hdump : s.dump = (s.mem .code).toBytes (s.partLength .code) ++ ((s.mem .data).toBytes (s.partLength .data) ++
      ((s.mem .stack).toBytes (s.partLength .stack) ++ ((s.mem .call).toBytes (s.partLength .call) ++ []))) := by
    simp [State.dump]
  rw [hdump]
  cases seg with
  | code => rw [State.partStart, Nat.zero_add, hhere]
  | data => rw [State.partStart, hskip, hhere]
  | stack => rw [State.partStart, Nat.add_assoc, hskip, hskip, hhere]
  | call => rw [State.partStart, Nat.add_assoc, Nat.add_assoc, hskip, hskip, hskip, hhere]

/-- Every offset of the image lies in the part of some segment. -/
theorem State.exists_part (s : State) {m : Nat} (h : m < s.imageLength) :
    ∃ seg n, n < s.partLength seg ∧ m = s.partStart seg + n := by
  have hparts : s.imageLength = s.partStart .call + s.partLength .call := rfl
  by_cases hcall : s.partStart .call ≤ m
  · exact ⟨.call, m - s.partStart .call, by omega, by omega⟩
  by_cases hstack : s.partStart .stack ≤ m
  · exact ⟨.stack, m - s.partStart .stack, by simp only [State.partStart] at *; omega, by omega⟩
  by_cases hdata : s.partStart .data ≤ m
  · exact ⟨.data, m - s.partStart .data, by simp only [State.partStart] at *; omega, by omega⟩
  · exact ⟨.code, m, by simp only [State.partStart] at *; omega, (Nat.zero_add m).symm⟩

theorem State.dump_withImage {s : State} {bytes : List Byte} (h : bytes.length = s.imageLength) :
    (s.withImage bytes).dump = bytes := by
  have hlen : (s.withImage bytes).dump.length = bytes.length := (State.length_dump _).trans h.symm
  refine List.ext_getElem hlen fun m hm hm' => ?_
  obtain ⟨seg, n, hn, rfl⟩ := s.exists_part (h ▸ hm')
  rw [← List.getD_eq_getElem _ 0 hm, ← List.getD_eq_getElem _ 0 hm']
  calc (s.withImage bytes).dump.getD (s.partStart seg + n) 0
    _ = (s.withImage bytes).byteAt seg n := (s.withImage bytes).getD_dump seg hn
    _ = bytes.getD (s.partStart seg + n) 0 := s.byteAt_withImage bytes seg hn

/-! ### Reset by the host -/

/-- The special registers after a reset (10_state.md R45). -/
theorem resetRegs_special (g : Vector Word 256) :
    (resetRegs g)[8] = 0#16 ∧ (resetRegs g)[9] = 0xFFFF#16 ∧ (resetRegs g)[10] = 0#16 ∧ (resetRegs g)[11] = 0xFFFF#16 := by
  simp [resetRegs, Config.stackTop]

end Sys2Proof.Machine
end

section
open Sys2Proof Sys2Proof.Machine Sys2Proof.Statements

/-- Settles O54: a load gives each segment its part of the image, and a cell is the bytes at its offset there. -/
theorem loadImageCells : Obligations.LoadImageCells := by
  refine ⟨rfl, fun bytes s h => State.loadImage_of_started h bytes, fun bytes s h => ?_⟩
  rw [State.loadImage_of_not_started h]
  refine ⟨fun hlen => if_neg hlen, s.imageLength_eq, fun hlen => ⟨s.withImage bytes, if_pos hlen, rfl,
    fun k hk => s.readCell_withImage bytes hk, fun k hk => s.readWord_withImage bytes (seg := .data) nofun hk,
    fun k hk => s.readWord_withImage bytes (seg := .stack) nofun hk,
    fun k hk => s.readWord_withImage bytes (seg := .call) nofun hk⟩⟩

/-- Settles O55: each segment's bytes stand at its part of the dump, and a loaded part dumps as it was. -/
theorem dumpOfLoadedImage : Obligations.DumpOfLoadedImage := by
  refine ⟨fun s => ⟨s.length_dump, fun h => ?_, fun hh hs => ?_, fun n hn => ?_, fun n hn => s.getD_dump .data hn,
    fun n hn => s.getD_dump .stack hn, fun n hn => s.getD_dump .call hn⟩, fun bytes s t h => ?_⟩
  · exact if_pos (by simpa using h)
  · simp [State.hostDump, hh, hs]
  · simpa [State.partStart] using s.getD_dump .code hn
  · obtain ⟨hlen, rfl⟩ := State.loadImage_ok h
    exact State.dump_withImage hlen

/-- Settles O10: the special registers and the flags are read off `State.hostReset`; the general registers are those of
`resetRegs`. -/
theorem hostResetValues : Obligations.HostResetValues := by
  intro l s
  obtain ⟨hip, hsp, hpred, hcsp⟩ := resetRegs_special l.regs
  refine ⟨hip, hsp, hpred, hcsp, rfl, rfl, rfl, rfl, fun u => ?_, fun r h2 hr => ?_, rfl, rfl, rfl, rfl, rfl, rfl,
    step_of_halted⟩
  · cases u <;> exact ⟨rfl, rfl⟩
  · exact ((s.hostReset l).reg_of_le h2).trans (resetRegs_general l.regs h2 hr)

end

section
/-! PROOFS. Exceptions (60_exceptions.md). An operation that raises an error raises it in the state it began in, for a cause
that state justifies; only an error of a device comes later, after data accesses and nothing else (R372, R373). From that: which
errors a step can latch and why (R375), and when `WriteProtected` and `DivideByZero` are raised (R376, R378). -/

namespace Sys2Proof.Machine

open Sys2Proof.Statements

/-! ### The cause of an error -/

/-- What in state `s` justifies an error other than a device's own: `ds` are the registers written through operands, `zero` says
that a divisor is 0. An error with no justification is raised by no instruction. -/
def Error.Justified (s : State) (ds : List RegIdx) (zero : Prop) : Error → Prop
  | .writeProtected r => r ∈ ds ∧ r.toNat < 2
  | .divideByZero => zero
  | .indexOutOfRange table n => table = .group ∧ 5 ≤ n ∧ n ≤ 7
  | .invalidSystemCommand sel => systemCallTable s.config sel = .invalid
  | .addressOutOfRange seg a => seg ≠ .data ∧ s.size seg ≤ a.toNat
  | .unmappedIoAddress a => ¬Mapped a s
  | .decodeRangeError | .overlappingDevice | .unitNotRunning | .unitAlreadyRunning | .deviceError _ _ => False
  | _ => True

theorem Error.Justified.not_device {s : State} {ds : List RegIdx} {zero : Prop} {e : Error} (h : e.Justified s ds zero) :
    isDeviceError e = false := by
  cases e with
  | deviceError a n => exact absurd h not_false
  | _ => rfl

/-- `t` comes from `s` by accesses to the data space alone. -/
structure DataProgress (s t : State) : Prop where
  frame : t = { s with data := t.data, io := t.io }
  io : ∃ made, t.io = s.io ++ made

/-- A device that the configuration puts at an address answered with error `e`, after data accesses alone led from `s` to `t`. -/
structure DeviceFault (s : State) (e : Error) (t : State) : Prop where
  claimed : ∃ a n, e = .deviceError a n ∧ s.config.dataSize ≤ a.toNat ∧ registryLookup s.config.devices a ≠ none
  frame : t = { s with data := t.data, io := t.io }
  io : ∃ made, made ≠ [] ∧ t.io = s.io ++ made

/-- An operation of an instruction that began in `s` is precise: an error it raises leaves `s` itself and is justified there,
or is a device's own. -/
def Res.Precise {α : Type} (s : State) (ds : List RegIdx) (zero : Prop) (r : Res α) : Prop :=
  ∀ e t, r = .raised e t → (t = s ∧ e.Justified s ds zero) ∨ DeviceFault s e t

section Precise

variable {α β : Type} {s t : State} {ds : List RegIdx} {zero : Prop}

theorem Res.Precise.done {a : α} : (Res.done a t).Precise s ds zero := fun _ _ h => nomatch h

theorem Res.Precise.raised {e : Error} (h : e.Justified s ds zero) : (Res.raised e s : Res α).Precise s ds zero := by
  rintro _ _ ⟨⟩
  exact .inl ⟨rfl, h⟩

theorem Res.Precise.andThen {r : Res α} {g : α → State → Res β} (hr : r.Precise s ds zero)
    (hg : ∀ a t, r = .done a t → (g a t).Precise s ds zero) : (r.andThen g).Precise s ds zero := by
  intro e t h
  rcases Res.andThen_eq_raised.mp h with h | ⟨a, u, hdone, h⟩
  · exact hr e t h
  · exact hg a u hdone e t h

/-! ### Progress through the data space -/

theorem DataProgress.refl (s : State) : DataProgress s s := ⟨rfl, [], (List.append_nil _).symm⟩

theorem DataProgress.config (h : DataProgress s t) : t.config = s.config := (congrArg State.config h.frame :)

theorem DataProgress.reg (h : DataProgress s t) (r : RegIdx) : t.reg r = s.reg r := (congrArg (State.reg · r) h.frame :)

theorem DataProgress.access (h : DataProgress s t) (p : IoAccess) : DataProgress s { t with io := t.io ++ [p] } where
  frame := congrArg (fun u : State => { u with io := t.io ++ [p] }) h.frame
  io := by
    obtain ⟨made, hmade⟩ := h.io
    exact ⟨made ++ [p], by rw [hmade, List.append_assoc]⟩

theorem DataProgress.store (h : DataProgress s t) (m : Memory) : DataProgress s (t.setMem .data m) where
  frame := congrArg (State.setMem .data m) h.frame
  io := h.io

theorem claimed_of_route {a : Word} {dev : Device} (h : route s a = .device dev) :
    s.config.dataSize ≤ a.toNat ∧ registryLookup s.config.devices a ≠ none := by
  rcases route_cases s a with ⟨_, hr⟩ | ⟨ha, _, hl, _⟩ | ⟨_, _, hr⟩
  · cases hr.symm.trans h
  · exact ⟨ha, hl ▸ Option.some_ne_none _⟩
  · cases hr.symm.trans h

theorem DataProgress.deviceFault (h : DataProgress s t) {a : Word} {dev : Device} (hr : route t a = .device dev) (n : Nat)
    (p : IoAccess) : DeviceFault s (.deviceError a n) { t with io := t.io ++ [p] } where
  claimed := ⟨a, n, rfl, claimed_of_route ((route_congr h.config a).symm.trans hr)⟩
  frame := (h.access p).frame
  io := by
    obtain ⟨made, hmade⟩ := h.io
    exact ⟨made ++ [p], List.concat_ne_nil _ _, by rw [hmade, List.append_assoc]⟩

theorem mapped_of_route {a : Word} (h : route s a ≠ .unmapped) : Mapped a s :=
  Decidable.not_not.mp fun hm => h (route_of_not_mapped hm)

theorem memRead_done_progress (ht : DataProgress s t) {a v : Word} {u : State} (h : memRead a t = .done v u) :
    DataProgress s u := by
  rcases memRead_done h with ⟨_, _, rfl⟩ | ⟨_, _, _, rfl⟩
  · exact ht
  · exact ht.access _

/-- An address that could be read has RAM or a device. -/
theorem memRead_done_mapped {a v : Word} {u : State} (h : memRead a s = .done v u) : Mapped a s := by
  rcases memRead_done h with ⟨ha, _, _⟩ | ⟨_, hr, _, _⟩
  · exact .inl ha
  · exact .inr (claimed_of_route hr).2

theorem memWrite_done_progress (ht : DataProgress s t) {a v : Word} {u : State} (h : memWrite a v t = .done () u) :
    DataProgress s u := by
  rcases memWrite_done h with ⟨_, rfl⟩ | ⟨_, _, rfl⟩
  · exact ht.store _
  · exact ht.access _

/-! ### The operations are precise -/

theorem checkWritable_precise {d : RegIdx} (hd : d ∈ ds) : (checkWritable d s).Precise s ds zero := by
  rcases checkWritable_cases d s with ⟨hd2, h⟩ | ⟨_, h⟩ <;> rw [h]
  · exact .raised ⟨hd, hd2⟩
  · exact .done

theorem checkWritable_done_le {d : RegIdx} (h : checkWritable d s = .done () t) : 2 ≤ d.toNat := by
  rcases checkWritable_cases d s with ⟨_, hc⟩ | ⟨hd, _⟩
  · cases hc.symm.trans h
  · exact hd

/-- Past its check a register write raises nothing, wherever it comes. -/
theorem writeReg_precise {d : RegIdx} (hd : 2 ≤ d.toNat) (v : Word) : (writeReg d v t).Precise s ds zero := by
  rw [writeReg_of_le hd]
  exact .done

theorem memProbe_precise (a : Word) : (memProbe a s).Precise s ds zero := by
  rcases memProbe_cases a s with ⟨hr, h⟩ | ⟨_, h⟩ <;> rw [h]
  · exact .raised fun hm => route_ne_unmapped_of_mapped hm hr
  · exact .done

theorem memProbe_done_mapped {a : Word} (h : memProbe a s = .done () t) : Mapped a s := by
  rcases memProbe_cases a s with ⟨_, hp⟩ | ⟨hr, _⟩
  · cases hp.symm.trans h
  · exact mapped_of_route hr

/-- A read as the first access may find the address unmapped; a later one must be of an address known to be mapped. -/
theorem memRead_precise (ht : DataProgress s t) {a : Word} (ha : t = s ∨ Mapped a s) : (memRead a t).Precise s ds zero := by
  intro e u h
  rcases memRead_raised h with ⟨hr, rfl, rfl⟩ | ⟨dev, n, hr, rfl, rfl⟩
  · have hunmapped : ¬Mapped a s := fun hm => route_ne_unmapped_of_mapped hm ((route_congr ht.config a).symm.trans hr)
    exact .inl ⟨ha.resolve_right hunmapped, hunmapped⟩
  · exact .inr (ht.deviceFault hr n _)

theorem memWrite_precise (ht : DataProgress s t) {a : Word} (ha : Mapped a s) (v : Word) :
    (memWrite a v t).Precise s ds zero := by
  intro e u h
  rcases memWrite_raised h with ⟨hr, rfl, rfl⟩ | ⟨dev, n, hr, rfl, rfl⟩
  · exact absurd ((route_congr ht.config a).symm.trans hr) (route_ne_unmapped_of_mapped ha)
  · exact .inr (ht.deviceFault hr n _)

theorem push_precise (k : StackId) (v : Word) : (push k v s).Precise s ds zero := by
  rcases push_cases k v s with ⟨hsize, h⟩ | ⟨_, h⟩ <;> rw [h]
  · exact .raised ⟨by cases k <;> decide, hsize⟩
  · exact .done

theorem peek_precise (k : StackId) : (peek k s).Precise s ds zero := by
  rcases peek_cases k s with ⟨hsize, h⟩ | ⟨_, h⟩ <;> rw [h]
  · exact .raised ⟨by cases k <;> decide, hsize⟩
  · exact .done

theorem pop_precise (k : StackId) : (pop k s).Precise s ds zero :=
  .andThen (peek_precise k) fun _ _ _ => .done

theorem branch_precise (addr : Word) (isCall : Bool) : (branch addr isCall s).Precise s ds zero := by
  cases isCall with
  | false => exact .done
  | true => exact .andThen (push_precise .callStack _) fun _ _ _ => .done

theorem arithmetic_precise {f : ArithFn} {d : RegIdx} {a b : Word} (hd : d ∈ ds) (hzero : f a b = none → zero) :
    (arithmetic f d a b s).Precise s ds zero := by
  rcases arithmetic_cases f d a b s with ⟨hf, h⟩ | ⟨_, _, hd2, h⟩ | ⟨_, _, _, h⟩ <;> rw [h]
  · exact .raised (hzero hf)
  · exact .raised ⟨hd, hd2⟩
  · exact .done

/-- What the check of a destination has established. -/
structure Place.Admitted (p : Place) (s : State) : Prop where
  writable : ∀ r ∈ p.destinations, 2 ≤ r.toNat
  mapped : ∀ a ∈ p.addresses s, Mapped a s

theorem admitPlace_precise {p : Place} (h : p.destinations ⊆ ds) : (admitPlace p s).Precise s ds zero := by
  cases p with
  | reg b => exact checkWritable_precise (h (List.mem_singleton_self b))
  | memByReg b | memByImm imm => exact memProbe_precise _

theorem admitted_of_admitPlace {p : Place} (h : admitPlace p s = .done () t) : p.Admitted s := by
  cases p with
  | reg b =>
    have hb : 2 ≤ b.toNat := checkWritable_done_le h
    exact ⟨fun r hr => List.mem_singleton.mp hr ▸ hb, nofun⟩
  | memByReg b =>
    have hb : Mapped (s.reg b) s := memProbe_done_mapped h
    exact ⟨nofun, fun a ha => List.mem_singleton.mp ha ▸ hb⟩
  | memByImm imm =>
    have himm : Mapped imm s := memProbe_done_mapped h
    exact ⟨nofun, fun a ha => List.mem_singleton.mp ha ▸ himm⟩

theorem readOperand_precise (o : Operand) : (readOperand o s).Precise s ds zero := by
  rcases o with (b | b | imm) | imm
  · exact .done
  · exact memRead_precise (.refl s) (.inl rfl)
  · exact memRead_precise (.refl s) (.inl rfl)
  · exact .done

theorem readOperand_done_progress {o : Operand} {v : Word} (h : readOperand o s = .done v t) : DataProgress s t := by
  rcases o with (b | b | imm) | imm
  · cases h; exact .refl s
  · exact memRead_done_progress (.refl s) h
  · exact memRead_done_progress (.refl s) h
  · cases h; exact .refl s

theorem writePlace_precise {p : Place} (hp : p.Admitted s) (ht : DataProgress s t) (v : Word) :
    (writePlace p v t).Precise s ds zero := by
  cases p with
  | reg b => exact writeReg_precise (hp.writable b (List.mem_singleton_self b)) v
  | memByReg b =>
    have hb : Mapped (t.reg b) s := hp.mapped _ (List.mem_singleton.mpr (ht.reg b))
    exact memWrite_precise ht hb v
  | memByImm imm => exact memWrite_precise ht (hp.mapped imm (List.mem_singleton_self imm)) v

theorem copyInto_precise {dst : Place} (h : dst.destinations ⊆ ds) (src : Operand) :
    (copyInto dst src s).Precise s ds zero := by
  refine .andThen (admitPlace_precise h) fun _ t hadmit => ?_
  cases admitPlace_done hadmit
  refine .andThen (readOperand_precise src) fun v u hread => ?_
  exact writePlace_precise (admitted_of_admitPlace hadmit) (readOperand_done_progress hread) v

theorem swapRegisters_precise {d s0 : RegIdx} (hd : d ∈ ds) (h0 : s0 ∈ ds) : (swapRegisters d s0 s).Precise s ds zero := by
  refine .andThen (checkWritable_precise hd) fun _ t hcheck => ?_
  cases checkWritable_done hcheck
  refine .andThen (checkWritable_precise h0) fun _ t hcheck0 => ?_
  refine .andThen (writeReg_precise (checkWritable_done_le hcheck) _) fun _ u _ => ?_
  exact writeReg_precise (checkWritable_done_le hcheck0) _

theorem swapRegisterCell_precise {d : RegIdx} (hd : d ∈ ds) (a : Word) : (swapRegisterCell d a s).Precise s ds zero := by
  refine .andThen (checkWritable_precise hd) fun _ t hcheck => ?_
  cases checkWritable_done hcheck
  refine .andThen (memRead_precise (.refl s) (.inl rfl)) fun m t hread => ?_
  have ht : DataProgress s t := memRead_done_progress (.refl s) hread
  refine .andThen (memWrite_precise ht (memRead_done_mapped hread) _) fun _ u _ => ?_
  exact writeReg_precise (checkWritable_done_le hcheck) m

/-- The probes come first, so that no access of the exchange finds its address unmapped. -/
theorem swapCells_precise (a1 a2 : Word) : (swapCells a1 a2 s).Precise s ds zero := by
  refine .andThen (memProbe_precise a1) fun _ t hprobe1 => ?_
  cases memProbe_done hprobe1
  refine .andThen (memProbe_precise a2) fun _ t hprobe2 => ?_
  cases memProbe_done hprobe2
  have h1 : Mapped a1 s := memProbe_done_mapped hprobe1
  have h2 : Mapped a2 s := memProbe_done_mapped hprobe2
  refine .andThen (memRead_precise (.refl s) (.inr h1)) fun m1 t3 hread1 => ?_
  have ht3 : DataProgress s t3 := memRead_done_progress (.refl s) hread1
  refine .andThen (memRead_precise ht3 (.inr h2)) fun m2 t4 hread2 => ?_
  have ht4 : DataProgress s t4 := memRead_done_progress ht3 hread2
  refine .andThen (memWrite_precise ht4 h1 m2) fun _ t5 hwrite => ?_
  exact memWrite_precise (memWrite_done_progress ht4 hwrite) h2 m1

end Precise

/-! ### Actions and decoded cells are precise -/

/-- The action divides, and its divisor is 0. -/
def Action.DividesByZero (a : Action) (s : State) : Prop :=
  ∃ f d x y, a = .arithmetic f d x y ∧ f (x.value s) (y.value s) = none

theorem dividesByZero_action (i : Instr) (s : State) : (action i).DividesByZero s ↔ divisor i s = some 0#16 := by
  constructor
  · rintro ⟨f, d, x, y, hi, hf⟩
    by_contra hdiv
    exact arithmetic_defined hi hdiv hf
  · intro hdiv
    cases i with
    | div d s0 s1 | rem d s0 s1 => exact ⟨_, _, _, _, rfl, if_pos (Option.some.inj hdiv)⟩
    | divi d imm | remi d imm => exact ⟨_, _, _, _, rfl, if_pos (Option.some.inj hdiv)⟩
    | _ => cases hdiv

theorem Action.run_precise (a : Action) (s : State) : (a.run s).Precise s a.destinations (a.DividesByZero s) := by
  cases a with
  | arithmetic f d x y =>
    exact arithmetic_precise (List.mem_singleton_self d) fun hf => ⟨f, d, x, y, rfl, hf⟩
  | copy dst src => exact copyInto_precise (List.Subset.refl _) src
  | swapRegisters d s0 => exact swapRegisters_precise List.mem_cons_self (List.mem_cons_of_mem d (List.mem_singleton_self s0))
  | swapRegisterCell d cell => exact swapRegisterCell_precise (List.mem_singleton_self d) _
  | swapCells d cell => exact swapCells_precise _ _
  | push v => exact push_precise _ _
  | pop d =>
    refine .andThen (checkWritable_precise (List.mem_singleton_self d)) fun _ t hcheck => ?_
    cases checkWritable_done hcheck
    exact .andThen (pop_precise _) fun v _ _ => writeReg_precise (checkWritable_done_le hcheck) v
  | peek d =>
    refine .andThen (checkWritable_precise (List.mem_singleton_self d)) fun _ t hcheck => ?_
    cases checkWritable_done hcheck
    exact .andThen (peek_precise _) fun v _ _ => writeReg_precise (checkWritable_done_le hcheck) v
  | branch target isCall | select sense s0 s1 isCall => exact branch_precise _ isCall
  | conditional sense target isCall =>
    rw [Action.run, conditional_eq_branch]
    exact branch_precise _ _
  | ret => exact .andThen (pop_precise _) fun _ _ _ => .done
  | panic payload => exact .raised trivial
  | compare | terminate | putc => exact .done

/-- The error of an undefined encoding is one of R116's rows; only the selector's depends on the state. -/
theorem justified_of_undefinedEncoding {r : DecodedInstruction} {e : Error} (h : undefinedEncoding r = some e) {s : State}
    (hsys : ∀ sel, e = .invalidSystemCommand sel → systemCallTable s.config sel = .invalid) : e.Justified s [] False := by
  have hgroup : r.group.toNat < 8 := r.group.isLt
  unfold undefinedEncoding at h
  split_ifs at h with h5 <;> cases h
  on_goal 1 => exact ⟨rfl, h5, Nat.le_of_lt_succ hgroup⟩
  on_goal -1 => exact hsys _ rfl
  all_goals trivial

theorem dispatchUndefined_precise {w : Cell32} {u : Undefined} (h : decode w = .undefined u) (s : State) :
    (dispatchUndefined u s).Precise s [] False := by
  have hrow : undefinedEncoding (decodeFields w) = some (undefinedError u) := by
    rw [← error_select]
    exact Decoded.error_eq_some_iff.mpr ⟨u, h, rfl⟩
  cases u with
  | systemCommand sel s0 s1 =>
    rw [dispatchUndefined]
    rcases systemCall_cases sel s0 s1 s with ⟨_, _, _, hcall⟩ | ⟨_, hcall⟩ | ⟨hinvalid, hcall⟩ <;> rw [hcall]
    · exact .done
    · exact .raised trivial
    · exact .raised hinvalid
  | _ => exact .raised (justified_of_undefinedEncoding hrow nofun)

theorem runDecoded_precise (w : Cell32) (s : State) : ∃ ds zero, (runDecoded (decode w) s).Precise s ds zero := by
  cases hdec : decode w with
  | instr i => exact ⟨_, _, (action i).run_precise s⟩
  | undefined u => exact ⟨_, _, dispatchUndefined_precise hdec s⟩

/-! ### The error that an instruction or a step latches -/

/-- An error latched by an operation is the one it raised: an update latches none. -/
theorem raised_of_latched {f : Footprint} {s t : State} {r : Res Unit} {e : Error} (herr : s.error = none)
    (hends : r.Ends (Reaches f s)) (ht : r.outcome = .next t) (he : t.error = some e) :
    ∃ u, r = .raised e u ∧ t = u.takeError e := by
  rcases Res.outcome_eq_next.mp ht with rfl | ⟨e', u, rfl, rfl⟩
  · obtain ⟨_, _, _, herr', _⟩ := Reaches.fixed hends
    cases (herr'.trans herr).symm.trans he
  · cases he
    exact ⟨u, rfl, rfl⟩

theorem exec_latches {i : Instr} {s t : State} {e : Error} (herr : s.error = none) (h : exec i s = .next t)
    (he : t.error = some e) :
    ∃ u, t = u.takeError e ∧ ((u = s ∧ e.Justified s (destinations i) (divisor i s = some 0#16)) ∨ DeviceFault s e u) := by
  rw [exec_eq_run] at h
  obtain ⟨u, hraised, rfl⟩ := raised_of_latched herr ((action i).run_reaches s) h he
  have hprecise := (action i).run_precise s e u hraised
  rw [destinations_action, dividesByZero_action] at hprecise
  exact ⟨u, rfl, hprecise⟩

theorem State.finishStep_error (s : State) : s.finishStep.error = s.error := by
  unfold State.finishStep
  split
  · rfl
  · exact s.advance_error

/-- A step that ends with an error took it in the state in which the step began, where it is justified; or it is a device's
own, after data accesses alone. -/
theorem step_latches {s t : State} {e : Error} (hrun : s.running = true) (h : step s = .next t) (he : t.error = some e) :
    ∃ u, t = u.takeError e ∧
      ((u = s.beginStep ∧ ∃ ds zero, e.Justified s.beginStep ds zero) ∨ DeviceFault s.beginStep e u) := by
  have herr : s.beginStep.error = none := ((State.running_iff s).mp hrun).2
  rcases Nat.lt_or_ge s.ip.toNat s.config.codeSize with hip | hip
  · rw [step_of_fetch_done hrun hip, dispatchDecoded_eq_run] at h
    obtain ⟨f, hends, -⟩ := runDecoded_reaches (decode (s.code.readCell s.ip.toNat)) s.beginStep
    obtain ⟨ds, zero, hprecise⟩ := runDecoded_precise (s.code.readCell s.ip.toNat) s.beginStep
    cases hout : (runDecoded (decode (s.code.readCell s.ip.toNat)) s.beginStep).outcome with
    | next v =>
      rw [hout] at h
      cases h
      rw [State.finishStep_error] at he
      obtain ⟨u, hraised, rfl⟩ := raised_of_latched herr hends hout he
      refine ⟨u, u.finishStep_takeError e, (hprecise e u hraised).imp_left ?_⟩
      exact fun ⟨hu, hj⟩ => ⟨hu, ds, zero, hj⟩
    | fault why | refused why =>
      rw [hout] at h
      cases h
  · rw [step_of_fetch_raised hrun hip] at h
    cases h
    cases he
    exact ⟨_, rfl, .inl ⟨rfl, [], False, nofun, hip⟩⟩

/-! ### The bytes a step leaves -/

theorem storedCells_beginStep (i : Instr) (s : State) : storedCells i s.beginStep = storedCells i s := by
  cases i <;> rfl

theorem State.finishStep_byteAt (s : State) (seg : Segment) (n : Nat) : s.finishStep.byteAt seg n = s.byteAt seg n := by
  unfold State.finishStep State.advance
  cases seg <;> split_ifs <;> rfl

/-- A step changes no byte outside the cells its instruction stores to. -/
theorem step_byteAt {s t : State} {i : Instr} (hrun : s.running = true) (hi : fetchesInstr s i) (h : step s = .next t)
    {seg : Segment} {n : Nat} (hn : ∀ c ∈ storedCells i s, c.1 = seg → n ≠ 2 * c.2.toNat ∧ n ≠ 2 * c.2.toNat + 1) :
    t.byteAt seg n = s.byteAt seg n := by
  rw [step_of_fetchesInstr hrun hi] at h
  cases hexec : exec i s.beginStep with
  | next u =>
    rw [hexec] at h
    cases h
    obtain ⟨_, hbytes, -⟩ := instructionFrame i s.beginStep u hexec
    rw [storedCells_beginStep] at hbytes
    calc u.finishStep.byteAt seg n
      _ = u.byteAt seg n := u.finishStep_byteAt seg n
      _ = s.beginStep.byteAt seg n := hbytes seg n hn
      _ = s.byteAt seg n := by cases seg <;> rfl
  | fault why | refused why =>
    rw [hexec] at h
    cases h

/-! ### The order of the checks (60_exceptions.md R376) -/

/-- The first of the written operand registers that is 0 or 1. -/
def firstProtected (ds : List RegIdx) : Option RegIdx :=
  ds.find? fun d => decide (d.toNat < 2)

theorem firstProtected_of_lt {d : RegIdx} (hd : d.toNat < 2) (ds : List RegIdx) : firstProtected (d :: ds) = some d :=
  List.find?_cons_of_pos (decide_eq_true hd)

theorem firstProtected_of_le {d : RegIdx} (hd : 2 ≤ d.toNat) (ds : List RegIdx) :
    firstProtected (d :: ds) = firstProtected ds :=
  List.find?_cons_of_neg fun h => Nat.not_lt.mpr hd (of_decide_eq_true h)

theorem firstProtected_singleton {d r : RegIdx} (h : firstProtected [d] = some r) : d = r ∧ d.toNat < 2 := by
  rcases Nat.lt_or_ge d.toNat 2 with hd | hd
  · rw [firstProtected_of_lt hd] at h
    exact ⟨Option.some.inj h, hd⟩
  · rw [firstProtected_of_le hd] at h
    cases h

theorem Action.run_of_firstProtected {a : Action} {r : RegIdx} {s : State} (hr : firstProtected a.destinations = some r)
    (hzero : ¬a.DividesByZero s) : a.run s = .raised (.writeProtected r) s := by
  have hcheck : ∀ {d : RegIdx} {g : Unit → State → Res Unit}, firstProtected [d] = some r →
      (checkWritable d s).andThen g = .raised (.writeProtected r) s := by
    intro d g hd
    obtain ⟨rfl, hd2⟩ := firstProtected_singleton hd
    rw [checkWritable_of_lt hd2, Res.andThen_raised]
  cases a with
  | arithmetic f d x y =>
    obtain ⟨rfl, hd2⟩ := firstProtected_singleton hr
    rcases arithmetic_cases f d (x.value s) (y.value s) s with ⟨hf, _⟩ | ⟨_, _, _, h⟩ | ⟨_, _, hd, _⟩
    · exact absurd ⟨f, d, x, y, rfl, hf⟩ hzero
    · exact h
    · omega
  | copy dst src =>
    cases dst with
    | reg b => exact hcheck hr
    | memByReg b | memByImm imm => cases hr
  | swapRegisters d s0 =>
    rw [Action.run, Machine.swapRegisters]
    rcases Nat.lt_or_ge d.toNat 2 with hd | hd
    · cases (firstProtected_of_lt hd [s0]).symm.trans hr
      rw [checkWritable_of_lt hd, Res.andThen_raised]
    · rw [checkWritable_of_le hd, Res.andThen_done]
      exact hcheck ((firstProtected_of_le hd [s0]).symm.trans hr)
  | swapRegisterCell d cell | pop d | peek d => exact hcheck hr
  | _ => cases hr

/-! ### Errors as values (60_exceptions.md R371) -/

/-- The error of a code and a payload, where there is one. -/
def Error.ofParts : Nat → ErrorPayload → Option Error
  | 1, .none => some .decodeRangeError
  | 2, .register i => some (.writeProtected i)
  | 3, .tableIndex table n => some (.indexOutOfRange table n)
  | 4, .none => some .divideByZero
  | 5, .op op => some (.notImplemented op)
  | 6, .op op => some (.invalidMoveOperation op)
  | 7, .op op => some (.invalidCompareOperation op)
  | 8, .op op => some (.illegalJumpOperation op)
  | 9, .op op => some (.invalidMiscOperation op)
  | 10, .selector sel => some (.invalidSystemCommand sel)
  | 11, .cell seg a => some (.addressOutOfRange seg a)
  | 12, .address a => some (.unmappedIoAddress a)
  | 13, .none => some .overlappingDevice
  | 14, .word v => some (.panic v)
  | 15, .none => some .unitNotRunning
  | 16, .none => some .unitAlreadyRunning
  | 17, .device a n => some (.deviceError a n)
  | _, _ => none

theorem Error.ofParts_code_payload (e : Error) : Error.ofParts e.code e.payload = some e := by
  cases e <;> rfl

theorem Error.eq_iff_parts (e f : Error) : e = f ↔ e.code = f.code ∧ e.payload = f.payload := by
  refine ⟨fun h => h ▸ ⟨rfl, rfl⟩, fun ⟨hcode, hpayload⟩ => Option.some.inj ?_⟩
  rw [← e.ofParts_code_payload, ← f.ofParts_code_payload, hcode, hpayload]

end Sys2Proof.Machine
end

section
open Sys2Proof Sys2Proof.Machine Sys2Proof.Statements

/-- Settles O9: an arithmetic action fails before its write, every other one checks its written operands first and in their
order; and an action raises only what its destinations and its divisor justify. -/
theorem writeProtectionAndDivideByZero : Obligations.WriteProtectionAndDivideByZero := by
  refine fun i s => ⟨fun hdiv => ?_, fun r hdiv hr => ?_, fun t herr hexec => ⟨fun he => ?_, fun r he => ?_⟩⟩
  · obtain ⟨f, d, x, y, hi, hf⟩ := (dividesByZero_action i s).mpr hdiv
    exact exec_of_none hi hf
  · rw [← destinations_action] at hr
    rw [exec_eq_run, Action.run_of_firstProtected hr (mt (dividesByZero_action i s).mp hdiv), Res.outcome_raised]
  · obtain ⟨u, _, ⟨_, hzero⟩ | ⟨⟨_, _, hdevice, _⟩, _, _⟩⟩ := exec_latches herr hexec he
    · exact hzero
    · cases hdevice
  · obtain ⟨u, _, ⟨_, hprotected⟩ | ⟨⟨_, _, hdevice, _⟩, _, _⟩⟩ := exec_latches herr hexec he
    · exact hprotected
    · cases hdevice

/-- Settles O18: an error that is justified in the state where the step began leaves that state; a device's own comes after data
accesses alone, and the bytes are those of the instruction's frame. -/
theorem errorsArePrecise : Obligations.ErrorsArePrecise := by
  intro s t e hrun hstep he
  obtain ⟨u, rfl, ⟨rfl, _, _, hjustified⟩ | hfault⟩ := step_latches hrun hstep he
  · have hnot : isDeviceError e = false := hjustified.not_device
    exact ⟨rfl, rfl, fun _ => rfl, fun hdevice => absurd (hnot.symm.trans hdevice) Bool.false_ne_true⟩
  · obtain ⟨⟨a, n, rfl, _⟩, hframe, hio⟩ := hfault
    exact ⟨rfl, rfl, nofun, fun _ => ⟨congrArg (State.takeError _) hframe, hio,
      fun i hi _ hn => step_byteAt hrun hi hstep fun c hc _ => hn c hc⟩⟩

/-- Settles O19: an error of a step is justified in the state where the step began, or is that of a device the configuration
puts at its address; and code and payload determine the error. -/
theorem onlyReachableErrors : Obligations.OnlyReachableErrors := by
  refine ⟨fun _ _ _ _ _ _ _ _ => rfl, Error.eq_iff_parts, fun s t e hrun hstep he => ?_⟩
  obtain ⟨u, _, ⟨_, ds, zero, hjustified⟩ | hfault⟩ := step_latches hrun hstep he
  · refine ⟨fun h => ?_, fun h => ?_, fun h => ?_, fun h => ?_, fun n h => ?_, fun n h => ?_, fun sel h => ?_,
      fun seg a h => ?_, fun a h => ?_, fun a n h => ?_⟩ <;> subst h
    case refine_5 => exact nomatch hjustified.1
    case refine_6 => exact hjustified.2
    case refine_10 => exact absurd hjustified not_false
    all_goals exact hjustified
  · obtain ⟨⟨a, n, rfl, hclaimed⟩, _, _⟩ := hfault
    exact ⟨nofun, nofun, nofun, nofun, nofun, nofun, nofun, nofun, nofun, fun _ _ h => by cases h; exact hclaimed⟩

end
